-- ==== Sys2Proof/Word.lean ====
section
/-! DEFINITION. The word types of RB39 (spec/00_scope.md R6, R7): plain bit vectors, nothing signed. -/

namespace Sys2Proof

/-- One byte of a byte string (R8). -/
abbrev Byte := BitVec 8

/-- A 32-bit register or host port word, `XLEN = 32` (R6, R22). -/
abbrev Word := BitVec 32

/-- A 64-bit word of SHA-512 (R171). -/
abbrev Word64 := BitVec 64

/-- An 11-bit word index, the type of `IDX[i]` and `GSEL` (R5 `GROUP_BITS`, R44, R41). -/
abbrev Index := BitVec 11

/-- A 12-bit byte offset inside the window, `AWIDTH = 12` (R6, R60). -/
abbrev Offset := BitVec 12

end Sys2Proof
end

