-- ==== Sys2Proof/Config.lean ====
section
/-! DEFINITION. The constants of spec/00_scope.md R5 and R6, and the one open parameter a platform fixes (`BASE`). -/

namespace Sys2Proof

/-- R5 `GROUP_BITS`: width of one bit group. -/
def Config.groupBits : Nat := 11

/-- R5 `KDF_ITER`: the PBKDF2 iteration count (R186). -/
def Config.kdfIter : Nat := 2048

/-- R5 `KDF_DKLEN`: derived key length in bytes (R186). -/
def Config.kdfDkLen : Nat := 64

/-- R5 `KDF_HLEN`: output of the 512-bit hash in bytes (R186). -/
def Config.kdfHLen : Nat := 64

/-- R5 `SALT_PREFIX`: the eight ASCII bytes of "mnemonic" (R190). -/
def Config.saltPrefix : List Byte :=
  [0x6D#8, 0x6E#8, 0x65#8, 0x6D#8, 0x6F#8, 0x6E#8, 0x69#8, 0x63#8]

/-- R5: the legal entropy lengths in bytes (R33). -/
def Config.legalEntropyLengths : List Nat := [16, 20, 24, 28, 32]

/-- R6 `MSG_CAP`: capacity of the message buffer in bytes. -/
def Config.msgCap : Nat := 32

/-- R6 `NIDX`: number of index registers. -/
def Config.nidx : Nat := 24

/-- R6 `PWD_CAP`: capacity of the password buffer in bytes. -/
def Config.pwdCap : Nat := 1024

/-- R6 `SALT_CAP`: capacity of the passphrase buffer in bytes. -/
def Config.saltCap : Nat := 256

/-- Which 4096-byte page of the platform's address space holds the window. The spec leaves it
open (R78, D4), so it is an uninterpreted constant: nothing in Lean can evaluate it (log 9). -/
opaque Config.basePage : Nat

/-- R6 `BASE`, R78: where the window begins; a multiple of 4096 whatever the platform chose. -/
def Config.base : Nat := 4096 * Config.basePage

end Sys2Proof
end

