-- ==== Sys2Proof/Machine/Bytes.lean ====
section
/-! DEFINITION. Byte strings, big-endian conversion and bit streams (spec/00_scope.md R8 to R11). -/

namespace Sys2Proof.Machine

/-- R8: `zeros(n)`. -/
def zeros (n : Nat) : List Byte := List.replicate n 0#8

/-- R8: byte-wise exclusive or of two byte strings of equal length. -/
def xorBytes (a b : List Byte) : List Byte := List.zipWith (fun x y => x ^^^ y) a b

/-- R9: `be(n, v)`, the `n` bytes of `v`, most significant byte first. -/
def beBytes (n v : Nat) : List Byte :=
  (List.range n).map (fun i => BitVec.ofNat 8 ((v >>> (8 * (n - 1 - i))) &&& 0xFF))

/-- R9: `int(s)`, the unsigned integer a byte string holds, most significant byte first. -/
def intOf (s : List Byte) : Nat := s.foldl (fun acc x => 256 * acc + x.toNat) 0

/-- R10: `bitlen(s)`. -/
def bitlen (s : List Byte) : Nat := 8 * s.length

/-- R10: bit `b` of the stream of `s`, from the most significant bit of byte 0 on. -/
def streamBit (s : List Byte) (b : Nat) : Nat :=
  ((s.getD (b / 8) 0#8).toNat >>> (7 - b % 8)) &&& 1

/-- R10: `take(s, b, n)`, the `n` stream bits from bit `b` on, the first the most significant. -/
def takeBits (s : List Byte) (b : Nat) : Nat → Nat
  | 0 => 0
  | n + 1 => 2 * takeBits s b n + streamBit s (b + n)

/-- R48: `words32(s)`, the 32-bit big-endian words of a byte string. -/
def words32 : List Byte → List Word
  | a :: b :: c :: d :: rest => BitVec.ofNat 32 (intOf [a, b, c, d]) :: words32 rest
  | _ => []

/-- R176, R189: the 64-bit big-endian words of a byte string. -/
def words64 : List Byte → List Word64
  | a :: b :: c :: d :: e :: f :: g :: h :: rest =>
    BitVec.ofNat 64 (intOf [a, b, c, d, e, f, g, h]) :: words64 rest
  | _ => []

/-- The big-endian bytes of a list of `w`-bit words, `w / 8` bytes each (R9, R130, R179). -/
def bytesOfWords {w : Nat} (ws : List (BitVec w)) : List Byte :=
  ws.flatMap (fun x => beBytes (w / 8) x.toNat)

/-- An array of `n` registers filled from the front of a list, the rest with `dflt`. -/
def fillVector {α : Type} (n : Nat) (dflt : α) (l : List α) : Vector α n :=
  ⟨((List.range n).map (fun i => l.getD i dflt)).toArray, by simp⟩

end Sys2Proof.Machine
end

