-- ==== Sys2Proof/Syntax.lean ====
section
/-! DEFINITION. The seven commands of RB39 (spec/30_encoding.md R90; spec/opcode_table.json). -/

namespace Sys2Proof

/-- One constructor per row of spec/opcode_table.json (R90). The only operand is the group number
of `GROUP k`, "used as the integer 0 to 255" (R98); `WellFormed` holds its range. -/
inductive Instr where
  /-- `NOP`, R200. -/
  | nop
  /-- `HASH`, R140. -/
  | hash
  /-- `GROUPS`, R153. -/
  | groups
  /-- `GROUP k`, R155. -/
  | group (k : Nat)
  /-- `ENCODE`, R157. -/
  | encode
  /-- `SEED`, R191. -/
  | seed
  /-- `CLR`, R201. -/
  | clr
deriving DecidableEq, Repr

end Sys2Proof
end

