-- ==== Sys2Proof/WellFormed.lean ====
section
/-! DEFINITION. Which terms of `Instr` stand for a command word (spec/30_encoding.md R91, R98). -/

namespace Sys2Proof

/-- R98: the group number is an unsigned 8-bit field, 0 to 255; no other command has an operand (R91).
The operand is a plain number in the syntax (log 10). -/
def Instr.wf : Instr → Bool
  | .nop => true
  | .hash => true
  | .groups => true
  | .group k => decide (k < 256)
  | .encode => true
  | .seed => true
  | .clr => true

end Sys2Proof
end

