-- ==== Sys2Proof/Decode.lean ====
section
/-! DEFINITION. Decoding and encoding of command words (spec/30_encoding.md R90 to R92, R98, R99, R104). -/

namespace Sys2Proof

/-- R91: `rsv`, bits 31:16 of a command word. -/
def rsvField (w : Word) : BitVec 16 := w.extractLsb' 16 16

/-- R91, R98: `k`, bits 15:8 of a command word. -/
def kField (w : Word) : BitVec 8 := w.extractLsb' 8 8

/-- R91: `op`, bits 7:0 of a command word. -/
def opField (w : Word) : BitVec 8 := w.extractLsb' 0 8

/-- The three ways a word is illegal (R99). -/
inductive DecodeError where
  /-- `w[31:16] != 0`. -/
  | reservedBitsSet
  /-- Opcode of format N with `w[15:8] != 0`. -/
  | operandNotZero
  /-- `w[7:0]` in 0x07 to 0xFF. -/
  | opcodeUnassigned
deriving DecidableEq, Repr

/-- A format N command: legal only when the operand field is zero (R91). -/
def decodeFormatN (w : Word) (i : Instr) : Except DecodeError Instr :=
  if kField w = 0#8 then .ok i else .error .operandNotZero

/-- The decoder of R104, total on every word; it reads the word only (R94). -/
def decode (w : Word) : Except DecodeError Instr :=
  if rsvField w ≠ 0#16 then .error .reservedBitsSet
  else
    match (opField w).toNat with
    | 0 => decodeFormatN w .nop
    | 1 => decodeFormatN w .hash
    | 2 => decodeFormatN w .groups
    | 3 => .ok (.group (kField w).toNat)
    | 4 => decodeFormatN w .encode
    | 5 => decodeFormatN w .seed
    | 6 => decodeFormatN w .clr
    | _ => .error .opcodeUnassigned

/-- R90: the opcode column. -/
def Instr.opcode : Instr → BitVec 8
  | .nop => 0x00#8
  | .hash => 0x01#8
  | .groups => 0x02#8
  | .group _ => 0x03#8
  | .encode => 0x04#8
  | .seed => 0x05#8
  | .clr => 0x06#8

/-- R91, R98: the operand field, zero in format N. -/
def Instr.operand : Instr → BitVec 8
  | .nop => 0#8
  | .hash => 0#8
  | .groups => 0#8
  | .group k => BitVec.ofNat 8 k
  | .encode => 0#8
  | .seed => 0#8
  | .clr => 0#8

/-- R91: the command word, the fields `rsv = 0`, `k` and `op` side by side. -/
def encode (i : Instr) : Word := 0#16 ++ i.operand ++ i.opcode

/-- R92, the first sentence: a word is legal exactly when its reserved field is zero and either its
opcode is one of the six of format N with a zero operand, or its opcode is 0x03. -/
def legalWord (w : Word) : Bool :=
  rsvField w == 0#16 &&
    ((kField w == 0#8 &&
        [0x00#8, 0x01#8, 0x02#8, 0x04#8, 0x05#8, 0x06#8].contains (opField w)) ||
      opField w == 0x03#8)

/-- One match/mask pair of R92 (a row of spec/opcode_table.json). -/
structure OpcodeRow where
  mask : Word
  value : Word
deriving DecidableEq, Repr

/-- The seven match/mask pairs of R92, in the table's order. -/
def opcodeRows : List OpcodeRow :=
  [⟨0xFFFFFFFF#32, 0x00000000#32⟩, ⟨0xFFFFFFFF#32, 0x00000001#32⟩,
   ⟨0xFFFFFFFF#32, 0x00000002#32⟩, ⟨0xFFFF00FF#32, 0x00000003#32⟩,
   ⟨0xFFFFFFFF#32, 0x00000004#32⟩, ⟨0xFFFFFFFF#32, 0x00000005#32⟩,
   ⟨0xFFFFFFFF#32, 0x00000006#32⟩]

/-- A word matches a row when its masked bits are the row's value (R92). -/
def OpcodeRow.matchesWord (r : OpcodeRow) (w : Word) : Bool := w &&& r.mask == r.value

/-- The full words of R104: six of format N and the 256 words `0x00000003 + (k << 8)`. -/
def legalWordList : List Word :=
  [0x00000000#32, 0x00000001#32, 0x00000002#32, 0x00000004#32, 0x00000005#32, 0x00000006#32] ++
    (List.range 256).map (fun k => BitVec.ofNat 32 (3 + k * 256))

/-- The instruction the decoder reads from the `nbits` low bits of `w`; the bits above are zero. A
command is one 32-bit data word of the port (R91, R77), so it has no byte layout of its own; a
number above 32 bits is no command word (log 16). -/
def decodeTableWord (nbits w : Nat) : Option Instr :=
  let v := w % 2 ^ nbits
  if v < 2 ^ 32 then
    match decode (BitVec.ofNat 32 v) with
    | .ok i => some i
    | .error _ => none
  else none

end Sys2Proof
end

