-- ==== Sys2Proof/Machine/State.lean ====
section
/-! DEFINITION. The architectural state of RB39 (spec/10_state.md R20), what the model keeps of the
outside world, the reasons a step can stop, and the state after reset (R54, R240). -/

namespace Sys2Proof.Machine

/-- The whole architectural state of the block, element by element as R20 lists it; "nothing else
is kept between steps". -/
structure Block where
  /-- `MSG[0..7]`, R42. -/
  msg : Vector Word 8
  /-- `MSG_LEN`, R37. -/
  msgLen : BitVec 6
  /-- `DIGEST[0..7]`, R43. -/
  digest : Vector Word 8
  /-- `IDX[0..23]`, R44. -/
  idx : Vector Index 24
  /-- `NGROUPS`, R40. -/
  ngroups : BitVec 5
  /-- `GSEL`, R41. -/
  gsel : Index
  /-- `PWD[0..255]`, R47. -/
  pwd : Vector Word 256
  /-- `PWD_LEN`, R38. -/
  pwdLen : BitVec 11
  /-- `SALT[0..63]`, R46. -/
  salt : Vector Word 64
  /-- `SALT_LEN`, R39. -/
  saltLen : BitVec 9
  /-- `SEED[0..15]`, R45. -/
  seed : Vector Word 16
  /-- `STATUS.BUSY`, R25. -/
  busy : Bool
  /-- `STATUS.DONE`, R26. -/
  done : Bool
  /-- `STATUS.ERR`, R27. -/
  err : Bool
  /-- `STATUS.DV`, R28. -/
  dv : Bool
  /-- `STATUS.IV`, R29. -/
  iv : Bool
  /-- `STATUS.GV`, R30. -/
  gv : Bool
  /-- `STATUS.SV`, R31. -/
  sv : Bool
  /-- `CTRL.IE_DONE`, R34. -/
  ieDone : Bool
  /-- `CTRL.IE_ERR`, R34. -/
  ieErr : Bool
  /-- `ERRCODE`, R35. -/
  errcode : BitVec 8
  /-- `ERRINFO`, R36. -/
  errinfo : Word
  /-- `CUR`, the last accepted command word, R21. -/
  cur : Word
deriving DecidableEq, Repr

/-- What can happen next to the block from outside, or the engine's turn (R15). The spec fixes no
order between a host access and a completion (U1, D20), so the order is data (log 1). -/
inductive Event where
  /-- A host read of `size` bytes at offset `off` (R13, R60). -/
  | read (off : Offset) (size : Nat)
  /-- A host write of `size` bytes at offset `off` with data word `v` (R13, R60; log 4). -/
  | write (off : Offset) (size : Nat) (v : Word)
  /-- The reset input (R240). -/
  | reset
  /-- The engine's turn: `Complete` if `BUSY = 1`, nothing otherwise (R15, R97). -/
  | engine
deriving DecidableEq, Repr

/-- The port's answer to one host access (R60). -/
inductive Response where
  /-- OK with the 32-bit data of a read (R64). -/
  | readOk (v : Word)
  /-- OK to a write (R70). -/
  | writeOk
  /-- Error response, `raise AccessFault(off)`: the access is refused, no state element of the
  block changes, and the block goes on (R14, R211; log 2). -/
  | accessFault (off : Offset)
deriving DecidableEq, Repr

/-- The machine: the block, and the model's own two fields for the outside world (log 1, log 2). -/
structure State where
  /-- Every element of R20. -/
  block : Block
  /-- The events still to come, first event first (the model's own, log 1). -/
  pending : List Event
  /-- The port's answers so far, newest first (the model's own, log 2). -/
  responses : List Response
deriving DecidableEq, Repr

/-- The one reason the machine can stop. -/
inductive Fault where
  /-- Raised by the engine's step alone, when `BUSY = 1` and `CUR` holds a word that is no legal
  command. R51 (e) and R97 say that no run reaches such a state. Safe: the model stops where the
  hardware never is (log 5). -/
  | curNotLegal (w : Word)
deriving DecidableEq, Repr

/-- Instructions without a meaning. -/
inductive Refusal where
  /-- Raised by an arm of `exec` for an instruction that has no meaning yet; no arm does. Safe. -/
  | notModelled (mnemonic : String)
deriving DecidableEq, Repr

/-- R54: every element of the block after reset. -/
def Block.reset : Block where
  msg := Vector.replicate 8 0#32
  msgLen := 0#6
  digest := Vector.replicate 8 0#32
  idx := Vector.replicate 24 0#11
  ngroups := 0#5
  gsel := 0#11
  pwd := Vector.replicate 256 0#32
  pwdLen := 0#11
  salt := Vector.replicate 64 0#32
  saltLen := 0#9
  seed := Vector.replicate 16 0#32
  busy := false
  done := false
  err := false
  dv := false
  iv := false
  gv := false
  sv := false
  ieDone := false
  ieErr := false
  errcode := 0#8
  errinfo := 0#32
  cur := 0x00000000#32

/-- R54, R240: the machine right after reset; nothing is pending and no access has been answered. -/
def State.reset : State where
  block := Block.reset
  pending := []
  responses := []

end Sys2Proof.Machine
end

