-- ==== Sys2Proof/Machine/Flags.lean ====
section
/-! DEFINITION. The flags and the words made of them: `STATUS`, `CTRL`, `ENT_OK`, `irq`
(spec/10_state.md R24 to R34, R53; spec/60_exceptions.md R218). -/

namespace Sys2Proof.Machine

/-- R33: `ENT_OK`, a function of `MSG_LEN`: 1 exactly when it is a legal entropy length. -/
def Block.entOk (b : Block) : Bool := Config.legalEntropyLengths.contains b.msgLen.toNat

/-- R24, R64: the `STATUS` word, bit 7 down to bit 0
`ENT_OK ++ SV ++ GV ++ IV ++ DV ++ ERR ++ DONE ++ BUSY`, zero-extended. -/
def Block.statusWord (b : Block) : Word :=
  0#24 ++ BitVec.ofBool b.entOk ++ BitVec.ofBool b.sv ++ BitVec.ofBool b.gv ++ BitVec.ofBool b.iv ++
    BitVec.ofBool b.dv ++ BitVec.ofBool b.err ++ BitVec.ofBool b.done ++ BitVec.ofBool b.busy

/-- R34, R64: the `CTRL` word, `IE_ERR ++ IE_DONE` zero-extended. -/
def Block.ctrlWord (b : Block) : Word :=
  0#30 ++ BitVec.ofBool b.ieErr ++ BitVec.ofBool b.ieDone

/-- R53, R218: the interrupt output, a level and a function of state. -/
def Block.irq (b : Block) : Bool := (b.done && b.ieDone) || (b.err && b.ieErr)

end Sys2Proof.Machine
end

