-- ==== Sys2Proof/Machine/Operands.lean ====
section
/-! DEFINITION. The operands of the commands: the byte strings of the three input buffers
(spec/10_state.md R42, R46 to R48), the concatenated buffer (spec/41_bitgroup.md R151), and the
fields of `CUR` the engine reads (spec/30_encoding.md R97). -/

namespace Sys2Proof.Machine

/-- Byte `r` of a word, 0 the most significant: bits `31 - 8r` down to `24 - 8r` (R42, R62). -/
def wordByte (w : Word) (r : Nat) : Byte := w.extractLsb' (24 - 8 * r) 8

/-- Byte `i` of a buffer of words (R48). Past the end of the array, where no reachable length points
(R51 (a)), the byte is 0 (log 7). -/
def bufferByte (ws : List Word) (i : Nat) : Byte := wordByte (ws.getD (i / 4) 0#32) (i % 4)

/-- R48: `bytes(B, L)`, a byte string of length `L`. -/
def bufferBytes (ws : List Word) (len : Nat) : List Byte :=
  (List.range len).map (bufferByte ws)

/-- R48: `msg = bytes(MSG, MSG_LEN)`. -/
def Block.msgBytes (b : Block) : List Byte := bufferBytes b.msg.toList b.msgLen.toNat

/-- R48: `pwd = bytes(PWD, PWD_LEN)`. -/
def Block.pwdBytes (b : Block) : List Byte := bufferBytes b.pwd.toList b.pwdLen.toNat

/-- R48: `pass = bytes(SALT, SALT_LEN)`. -/
def Block.passBytes (b : Block) : List Byte := bufferBytes b.salt.toList b.saltLen.toNat

/-- R43, R151: `d0 = DIGEST[0][31:24]`, the first digest byte. -/
def Block.digestByte0 (b : Block) : Byte := wordByte b.digest[0] 0

/-- R151: the concatenated buffer `CB = msg ++ [d0]`. -/
def Block.concatBuffer (b : Block) : List Byte := b.msgBytes ++ [b.digestByte0]

/-- R77, R97: the command the engine executes, decoded from `CUR` (log 5). -/
def Block.fetchCommand (b : Block) : Except DecodeError Instr := decode b.cur

end Sys2Proof.Machine
end

