-- ==== Sys2Proof/Machine/Ops.lean ====
section
/-! DEFINITION. The shared operations on the block: clearing results, taking a command fault and the
acknowledgement that undoes it, completion, and what the `Exec` procedures answer. -/

namespace Sys2Proof.Machine

/-- The indices and their flag cleared (R96 `GROUPS`; part of R49). -/
def Block.clearIndices (b : Block) : Block :=
  { b with iv := false, idx := Vector.replicate 24 0#11, ngroups := 0#5 }

/-- `GSEL` and its flag cleared (R96 `GROUP`; part of R49). -/
def Block.clearGroupSelect (b : Block) : Block := { b with gv := false, gsel := 0#11 }

/-- The digest and its flag cleared (R28; part of R49). -/
def Block.clearDigest (b : Block) : Block :=
  { b with dv := false, digest := Vector.replicate 8 0#32 }

/-- R49: message-side invalidation, `InvalM`. -/
def Block.invalM (b : Block) : Block := b.clearDigest.clearIndices.clearGroupSelect

/-- R50: seed-side invalidation, `InvalK`. -/
def Block.invalK (b : Block) : Block :=
  { b with sv := false, seed := Vector.replicate 16 0#32 }

/-- The three input buffers and their lengths zeroed (part of R58). -/
def Block.clearInputs (b : Block) : Block :=
  { b with
    msg := Vector.replicate 8 0#32, msgLen := 0#6,
    pwd := Vector.replicate 256 0#32, pwdLen := 0#11,
    salt := Vector.replicate 64 0#32, saltLen := 0#9 }

/-- R58: full clearing, `ClearAll`; `CTRL`, `CUR`, `DONE`, `ERR`, `ERRCODE`, `ERRINFO` stay. -/
def Block.clearAll (b : Block) : Block := b.clearInputs.invalM.invalK

/-- The causes of a command fault (R214). -/
inductive CmdFault where
  /-- Code 1: the word written to `CMD` is not legal. -/
  | illegalCmd
  /-- Code 2: `GROUPS` or `GROUP k` with `DV = 0`. -/
  | noDigest
  /-- Code 3: `GROUP k` past the last group, the document's `BitReadError`. -/
  | bitRead
deriving DecidableEq, Repr

/-- The `ERRCODE` column of R214. -/
def CmdFault.code : CmdFault → BitVec 8
  | .illegalCmd => 1#8
  | .noDigest => 2#8
  | .bitRead => 3#8

/-- TAKING A COMMAND FAULT, `raise CommandFault(code, info)` (R14, R213): the cause goes to
`ERRCODE`, one word of detail to `ERRINFO`, `ERR` is set; nothing else is saved and control goes
nowhere. -/
def Block.raiseFault (b : Block) (f : CmdFault) (info : Word) : Block :=
  { b with err := true, errcode := f.code, errinfo := info }

/-- THE RETURN FROM A COMMAND FAULT, the acknowledgement of R217 (R27): `ERR`, `ERRCODE` and
`ERRINFO` cleared in one step, nothing restored. -/
def Block.ackFault (b : Block) : Block :=
  { b with err := false, errcode := 0#8, errinfo := 0#32 }

/-- R26: `DONE` cleared by a host write of `STATUS` bit 1. -/
def Block.ackDone (b : Block) : Block := { b with done := false }

/-- What an `Exec` procedure answers (R97): the block it leaves, or a fault that "has written no
state". -/
inductive ExecResult where
  | ok (b : Block)
  | fault (f : CmdFault) (info : Word)
deriving DecidableEq, Repr

/-- The end of every completion: `BUSY <- 0`, `DONE <- 1` (R97). -/
def Block.finish (b : Block) : Block := { b with busy := false, done := true }

/-- The last part of R97: a fault is taken on the block as it was, then `BUSY <- 0`, `DONE <- 1`. -/
def completeWith (b : Block) : ExecResult → Block
  | .ok b' => b'.finish
  | .fault f info => (b.raiseFault f info).finish

/-- One atomic completion step of a machine whose engine ran an `Exec` procedure (R97, R73). -/
def completion (proc : Block → ExecResult) (s : State) : Host.Outcome State Fault Refusal :=
  .next { s with block := completeWith s.block (proc s.block) }

end Sys2Proof.Machine
end

