-- ==== Sys2Proof/Machine/Control.lean ====
section
/-! DEFINITION. The housekeeping commands `NOP` and `CLR` (spec/43_control.md R200, R201). -/

namespace Sys2Proof.Machine

/-- R200 `ExecNOP`: return ok. -/
def procNop (b : Block) : ExecResult := .ok b

/-- R201 `ExecCLR`: `ClearAll`; return ok. -/
def procClr (b : Block) : ExecResult := .ok b.clearAll

/-- The completion of `NOP` (R200, R97). -/
def execNop (s : State) : Host.Outcome State Fault Refusal := completion procNop s

/-- The completion of `CLR` (R201, R97). -/
def execClr (s : State) : Host.Outcome State Fault Refusal := completion procClr s

end Sys2Proof.Machine
end

