-- ==== Sys2Proof/Machine/BitGroup.lean ====
section
/-! DEFINITION. BGX: the concatenated buffer's groups, the count, the extractor and the multiplexer
(spec/41_bitgroup.md R150 to R160). -/

namespace Sys2Proof.Machine

/-- R152: `n_groups = (8 * (MSG_LEN + 1)) div 11`; one appended byte, then floor division. -/
def groupCount (msgLen : Nat) : Nat := 8 * (msgLen + 1) / Config.groupBits

/-- R154: group `g` of a buffer, or the number of the group its bit cursor cannot supply. -/
def groupOf (cb : List Byte) (g : Nat) : Except Nat Index :=
  if Config.groupBits * g + Config.groupBits > bitlen cb then .error g
  else .ok (BitVec.ofNat 11 (takeBits cb (Config.groupBits * g) Config.groupBits))

/-- The loop of R153: groups `0` to `n - 1` in rising order, or the first group that faults. -/
def extractGroups (cb : List Byte) : Nat → Except Nat (List Index)
  | 0 => .ok []
  | n + 1 =>
    match extractGroups cb n with
    | .error g => .error g
    | .ok vs =>
      match groupOf cb n with
      | .error g => .error g
      | .ok v => .ok (vs ++ [v])

/-- R156: how many bits of the digest byte the groups of a message of `msgLen` bytes consume. -/
def checksumBitsConsumed (msgLen : Nat) : Nat :=
  Config.groupBits * groupCount msgLen - 8 * msgLen

/-- R160, R156: how many trailing bits no group reads. -/
def trailingBits (msgLen : Nat) : Nat :=
  8 * (msgLen + 1) - Config.groupBits * groupCount msgLen

/-- R158: the 264-bit vector whose byte `i` from the left is `msg[i]`, then `d0`, then `fill`. -/
def wiredVector (msg : List Byte) (d0 : Byte) (fill : List Byte) : BitVec 264 :=
  BitVec.ofNat 264 (intOf ((msg ++ [d0] ++ fill).take 33))

/-- R158: the fixed 11-bit window number `g` of the wired vector, `V264[263 - 11g : 253 - 11g]`. -/
def wiredWindow (v : BitVec 264) (g : Nat) : Index := v.extractLsb' (253 - 11 * g) 11

end Sys2Proof.Machine
end

