-- ==== Sys2Proof/Machine/Sha2.lean ====
section
/-! DEFINITION. What SHA-256 and SHA-512 share: the two are one construction at two widths
(spec/40_sha256.md R121 to R130, spec/42_kdf.md R171 to R179). -/

namespace Sys2Proof.Machine

/-- The eight working words `a` to `h`, also used for the chaining value `H[0..7]` (R128, R178). -/
structure HashVars (w : Nat) where
  a : BitVec w
  b : BitVec w
  c : BitVec w
  d : BitVec w
  e : BitVec w
  f : BitVec w
  g : BitVec w
  h : BitVec w
deriving DecidableEq, Repr

/-- `H[0], …, H[7]` in order. -/
def HashVars.toList {w : Nat} (v : HashVars w) : List (BitVec w) :=
  [v.a, v.b, v.c, v.d, v.e, v.f, v.g, v.h]

/-- What the two hash functions differ in: the four sigma functions, the round constants (one per
round) and the initial hash words. Not a part of State. -/
structure HashParams (w : Nat) where
  bsig0 : BitVec w → BitVec w
  bsig1 : BitVec w → BitVec w
  ssig0 : BitVec w → BitVec w
  ssig1 : BitVec w → BitVec w
  k : List (BitVec w)
  iv : HashVars w

/-- R11: `rotr_w(x, n)` for `0 < n < w`. -/
def rotr {w : Nat} (x : BitVec w) (n : Nat) : BitVec w := (x >>> n) ||| (x <<< (w - n))

/-- R11: `shr(x, n)`, a logical right shift. -/
def shr {w : Nat} (x : BitVec w) (n : Nat) : BitVec w := x >>> n

/-- `Ch` of R122 and R172. -/
def ch {w : Nat} (x y z : BitVec w) : BitVec w := (x &&& y) ^^^ (~~~x &&& z)

/-- `Maj` of R122 and R172. -/
def maj {w : Nat} (x y z : BitVec w) : BitVec w := (x &&& y) ^^^ (x &&& z) ^^^ (y &&& z)

/-- The next schedule word from the words so far, newest first: `W[t-2]`, `W[t-7]`, `W[t-15]` and
`W[t-16]` stand at places 1, 6, 14 and 15 (R127, R177). -/
def nextScheduleWord {w : Nat} (p : HashParams w) (newestFirst : List (BitVec w)) : BitVec w :=
  p.ssig1 (newestFirst.getD 1 0) + newestFirst.getD 6 0 + p.ssig0 (newestFirst.getD 14 0) +
    newestFirst.getD 15 0

/-- `n` more schedule words put before the words so far, newest first (R127, R177). -/
def extendSchedule {w : Nat} (p : HashParams w) : Nat → List (BitVec w) → List (BitVec w)
  | 0, newestFirst => newestFirst
  | n + 1, newestFirst => extendSchedule p n (nextScheduleWord p newestFirst :: newestFirst)

/-- The message schedule `W[0], W[1], …` of a block's sixteen words, one word per round (R127, R177). -/
def schedule {w : Nat} (p : HashParams w) (m : List (BitVec w)) : List (BitVec w) :=
  (extendSchedule p (p.k.length - 16) m.reverse).reverse

/-- One round with its constant and schedule word; every right-hand side is the value before the
round (R128, R178). -/
def hashRound {w : Nat} (p : HashParams w) (v : HashVars w) (kt wt : BitVec w) : HashVars w :=
  let t1 := v.h + p.bsig1 v.e + ch v.e v.f v.g + kt + wt
  let t2 := p.bsig0 v.a + maj v.a v.b v.c
  { a := t1 + t2, b := v.a, c := v.b, d := v.c, e := v.d + t1, f := v.e, g := v.f, h := v.g }

/-- The rounds in rising order, one per pair of a round constant and a schedule word (R128, R178). -/
def hashRounds {w : Nat} (p : HashParams w) :
    HashVars w → List (BitVec w) → List (BitVec w) → HashVars w
  | v, kt :: ks, wt :: ws => hashRounds p (hashRound p v kt wt) ks ws
  | v, _, _ => v

/-- Word-wise addition modulo `2^w` (R121, R171; the last line of R128 and R178). -/
def HashVars.add {w : Nat} (x y : HashVars w) : HashVars w :=
  { a := x.a + y.a, b := x.b + y.b, c := x.c + y.c, d := x.d + y.d,
    e := x.e + y.e, f := x.f + y.f, g := x.g + y.g, h := x.h + y.h }

/-- Compression of a chaining value with a block's sixteen words (R128, R178). -/
def compress {w : Nat} (p : HashParams w) (hv : HashVars w) (m : List (BitVec w)) : HashVars w :=
  hv.add (hashRounds p hv p.k (schedule p m))

/-- `n` blocks of sixteen words each, one after the other (R126, R130; R176, R179). -/
def absorbBlocks {w : Nat} (p : HashParams w) : Nat → HashVars w → List (BitVec w) → HashVars w
  | 0, hv, _ => hv
  | n + 1, hv, ws => absorbBlocks p n (compress p hv (ws.take 16)) (ws.drop 16)

/-- The padding of R125 and R175: 0x80, `(c - L) mod blockBytes` zero bytes (the least non-negative
residue), and the length in bits in `lenBytes` bytes. -/
def padMessage (c blockBytes lenBytes : Nat) (m : List Byte) : List Byte :=
  m ++ [0x80#8] ++ zeros (((c : Int) - (m.length : Int)) % (blockBytes : Int)).toNat ++
    beBytes lenBytes (8 * m.length)

end Sys2Proof.Machine
end

