-- ==== Sys2Proof/Machine/Sha256.lean ====
section
/-! DEFINITION. H256, the SHA-256 hasher (spec/40_sha256.md R120 to R131). -/

namespace Sys2Proof.Machine

/-- R122 `BSIG0`. -/
def bsig0w32 (x : Word) : Word := rotr x 2 ^^^ rotr x 13 ^^^ rotr x 22

/-- R122 `BSIG1`. -/
def bsig1w32 (x : Word) : Word := rotr x 6 ^^^ rotr x 11 ^^^ rotr x 25

/-- R122 `SSIG0`. -/
def ssig0w32 (x : Word) : Word := rotr x 7 ^^^ rotr x 18 ^^^ shr x 3

/-- R122 `SSIG1`. -/
def ssig1w32 (x : Word) : Word := rotr x 17 ^^^ rotr x 19 ^^^ shr x 10

/-- R123: the sixty-four round constants `K256[0..63]`. -/
def k256 : List (BitVec 32) :=
  [0x428a2f98#32, 0x71374491#32, 0xb5c0fbcf#32, 0xe9b5dba5#32,
    0x3956c25b#32, 0x59f111f1#32, 0x923f82a4#32, 0xab1c5ed5#32,
    0xd807aa98#32, 0x12835b01#32, 0x243185be#32, 0x550c7dc3#32,
    0x72be5d74#32, 0x80deb1fe#32, 0x9bdc06a7#32, 0xc19bf174#32] ++
  [0xe49b69c1#32, 0xefbe4786#32, 0x0fc19dc6#32, 0x240ca1cc#32,
    0x2de92c6f#32, 0x4a7484aa#32, 0x5cb0a9dc#32, 0x76f988da#32,
    0x983e5152#32, 0xa831c66d#32, 0xb00327c8#32, 0xbf597fc7#32,
    0xc6e00bf3#32, 0xd5a79147#32, 0x06ca6351#32, 0x14292967#32] ++
  [0x27b70a85#32, 0x2e1b2138#32, 0x4d2c6dfc#32, 0x53380d13#32,
    0x650a7354#32, 0x766a0abb#32, 0x81c2c92e#32, 0x92722c85#32,
    0xa2bfe8a1#32, 0xa81a664b#32, 0xc24b8b70#32, 0xc76c51a3#32,
    0xd192e819#32, 0xd6990624#32, 0xf40e3585#32, 0x106aa070#32] ++
  [0x19a4c116#32, 0x1e376c08#32, 0x2748774c#32, 0x34b0bcb5#32,
    0x391c0cb3#32, 0x4ed8aa4a#32, 0x5b9cca4f#32, 0x682e6ff3#32,
    0x748f82ee#32, 0x78a5636f#32, 0x84c87814#32, 0x8cc70208#32,
    0x90befffa#32, 0xa4506ceb#32, 0xbef9a3f7#32, 0xc67178f2#32]

/-- R124: the eight initial hash words `IV256[0..7]`. -/
def iv256 : HashVars 32 :=
  { a := 0x6a09e667#32, b := 0xbb67ae85#32, c := 0x3c6ef372#32, d := 0xa54ff53a#32,
    e := 0x510e527f#32, f := 0x9b05688c#32, g := 0x1f83d9ab#32, h := 0x5be0cd19#32 }

/-- SHA-256 as an instance of the shared construction (R121 to R130). -/
def sha256Params : HashParams 32 :=
  { bsig0 := bsig0w32, bsig1 := bsig1w32, ssig0 := ssig0w32, ssig1 := ssig1w32,
    k := k256, iv := iv256 }

/-- R128: `compress256`. -/
def compress256 (hv : HashVars 32) (m : List Word) : HashVars 32 := compress sha256Params hv m

/-- R125: `pad256`. -/
def pad256 (m : List Byte) : List Byte := padMessage 55 64 8 m

/-- R126, R130: the chaining value after `N = len(pad256(m)) div 64` blocks. -/
def sha256State (m : List Byte) : HashVars 32 :=
  absorbBlocks sha256Params ((pad256 m).length / 64) iv256 (words32 (pad256 m))

/-- R130: `SHA256(m)`, 32 bytes. -/
def sha256 (m : List Byte) : List Byte := bytesOfWords (sha256State m).toList

end Sys2Proof.Machine
end

