-- ==== Sys2Proof/Machine/Hash.lean ====
section
/-! DEFINITION. The `HASH` command (spec/40_sha256.md R140). -/

namespace Sys2Proof.Machine

/-- `ExecHASH` of R140 as a change of the block: `DIGEST[j] <- int(digest[4j .. 4j+4])`, `DV <- 1`. -/
def Block.writeDigest (b : Block) : Block :=
  { b with digest := fillVector 8 0#32 (words32 (sha256 b.msgBytes)), dv := true }

/-- R140 `ExecHASH`; it always answers ok. -/
def procHash (b : Block) : ExecResult := .ok b.writeDigest

/-- The completion of `HASH` (R140, R97). -/
def execHash (s : State) : Host.Outcome State Fault Refusal := completion procHash s

end Sys2Proof.Machine
end

