-- ==== Sys2Proof/Machine/Grouping.lean ====
section
/-! DEFINITION. The commands `GROUPS`, `GROUP k` and `ENCODE` (spec/41_bitgroup.md R153, R155, R157). -/

namespace Sys2Proof.Machine

/-- The writes of a successful `ExecGROUPS` (R153): the groups into `IDX[0..n-1]`, zero above,
`NGROUPS <- n`, `IV <- 1`. A count above 24, which no reachable length gives (R153), would keep
the first 24 groups and the low five bits of the count (log 8). -/
def Block.writeIndices (b : Block) (n : Nat) (vs : List Index) : Block :=
  { b with idx := fillVector 24 0#11 vs, ngroups := BitVec.ofNat 5 n, iv := true }

/-- R153 `ExecGROUPS`: `NO_DIGEST` first; the `BIT_READ` branch is the document's checked condition. -/
def procGroups (b : Block) : ExecResult :=
  if b.dv = false then .fault .noDigest b.cur
  else
    match extractGroups b.concatBuffer (groupCount b.msgLen.toNat) with
    | .error g => .fault .bitRead (BitVec.ofNat 32 g)
    | .ok vs => .ok (b.writeIndices (groupCount b.msgLen.toNat) vs)

/-- The writes of a successful `ExecGROUP` (R155). -/
def Block.writeGroupSelect (b : Block) (v : Index) : Block := { b with gsel := v, gv := true }

/-- R155 `ExecGROUP(k)`: `NO_DIGEST` before `BIT_READ` (R216). -/
def procGroup (k : Nat) (b : Block) : ExecResult :=
  if b.dv = false then .fault .noDigest b.cur
  else
    match groupOf b.concatBuffer k with
    | .error g => .fault .bitRead (BitVec.ofNat 32 g)
    | .ok v => .ok (b.writeGroupSelect v)

/-- R157 `ExecENCODE`: `ExecHASH`, then `ExecGROUPS` on the digest just written; a fault of the second
returns that fault with no write of the first left (log 11). -/
def procEncode (b : Block) : ExecResult :=
  match procHash b with
  | .fault f info => .fault f info
  | .ok b' => procGroups b'

/-- The completion of `GROUPS` (R153, R97). -/
def execGroups (s : State) : Host.Outcome State Fault Refusal := completion procGroups s

/-- The completion of `GROUP k` (R155, R97). -/
def execGroup (k : Nat) (s : State) : Host.Outcome State Fault Refusal := completion (procGroup k) s

/-- The completion of `ENCODE` (R157, R97). -/
def execEncode (s : State) : Host.Outcome State Fault Refusal := completion procEncode s

end Sys2Proof.Machine
end

