-- ==== Sys2Proof/Machine/Sha512.lean ====
section
/-! DEFINITION. SHA-512, the hash inside the KDF unit (spec/42_kdf.md R171 to R179). -/

namespace Sys2Proof.Machine

/-- R172 `BSIG0`. -/
def bsig0w64 (x : Word64) : Word64 := rotr x 28 ^^^ rotr x 34 ^^^ rotr x 39

/-- R172 `BSIG1`. -/
def bsig1w64 (x : Word64) : Word64 := rotr x 14 ^^^ rotr x 18 ^^^ rotr x 41

/-- R172 `SSIG0`. -/
def ssig0w64 (x : Word64) : Word64 := rotr x 1 ^^^ rotr x 8 ^^^ shr x 7

/-- R172 `SSIG1`. -/
def ssig1w64 (x : Word64) : Word64 := rotr x 19 ^^^ rotr x 61 ^^^ shr x 6

/-- R173: the eighty round constants `K512[0..79]`. -/
def k512 : List (BitVec 64) :=
  [0x428a2f98d728ae22#64, 0x7137449123ef65cd#64, 0xb5c0fbcfec4d3b2f#64, 0xe9b5dba58189dbbc#64,
    0x3956c25bf348b538#64, 0x59f111f1b605d019#64, 0x923f82a4af194f9b#64, 0xab1c5ed5da6d8118#64,
    0xd807aa98a3030242#64, 0x12835b0145706fbe#64, 0x243185be4ee4b28c#64, 0x550c7dc3d5ffb4e2#64,
    0x72be5d74f27b896f#64, 0x80deb1fe3b1696b1#64, 0x9bdc06a725c71235#64, 0xc19bf174cf692694#64] ++
  [0xe49b69c19ef14ad2#64, 0xefbe4786384f25e3#64, 0x0fc19dc68b8cd5b5#64, 0x240ca1cc77ac9c65#64,
    0x2de92c6f592b0275#64, 0x4a7484aa6ea6e483#64, 0x5cb0a9dcbd41fbd4#64, 0x76f988da831153b5#64,
    0x983e5152ee66dfab#64, 0xa831c66d2db43210#64, 0xb00327c898fb213f#64, 0xbf597fc7beef0ee4#64,
    0xc6e00bf33da88fc2#64, 0xd5a79147930aa725#64, 0x06ca6351e003826f#64, 0x142929670a0e6e70#64] ++
  [0x27b70a8546d22ffc#64, 0x2e1b21385c26c926#64, 0x4d2c6dfc5ac42aed#64, 0x53380d139d95b3df#64,
    0x650a73548baf63de#64, 0x766a0abb3c77b2a8#64, 0x81c2c92e47edaee6#64, 0x92722c851482353b#64,
    0xa2bfe8a14cf10364#64, 0xa81a664bbc423001#64, 0xc24b8b70d0f89791#64, 0xc76c51a30654be30#64,
    0xd192e819d6ef5218#64, 0xd69906245565a910#64, 0xf40e35855771202a#64, 0x106aa07032bbd1b8#64] ++
  [0x19a4c116b8d2d0c8#64, 0x1e376c085141ab53#64, 0x2748774cdf8eeb99#64, 0x34b0bcb5e19b48a8#64,
    0x391c0cb3c5c95a63#64, 0x4ed8aa4ae3418acb#64, 0x5b9cca4f7763e373#64, 0x682e6ff3d6b2b8a3#64,
    0x748f82ee5defb2fc#64, 0x78a5636f43172f60#64, 0x84c87814a1f0ab72#64, 0x8cc702081a6439ec#64,
    0x90befffa23631e28#64, 0xa4506cebde82bde9#64, 0xbef9a3f7b2c67915#64, 0xc67178f2e372532b#64] ++
  [0xca273eceea26619c#64, 0xd186b8c721c0c207#64, 0xeada7dd6cde0eb1e#64, 0xf57d4f7fee6ed178#64,
    0x06f067aa72176fba#64, 0x0a637dc5a2c898a6#64, 0x113f9804bef90dae#64, 0x1b710b35131c471b#64,
    0x28db77f523047d84#64, 0x32caab7b40c72493#64, 0x3c9ebe0a15c9bebc#64, 0x431d67c49c100d4c#64,
    0x4cc5d4becb3e42b6#64, 0x597f299cfc657e2a#64, 0x5fcb6fab3ad6faec#64, 0x6c44198c4a475817#64]

/-- R174: the eight initial hash words `IV512[0..7]`. -/
def iv512 : HashVars 64 :=
  { a := 0x6a09e667f3bcc908#64, b := 0xbb67ae8584caa73b#64, c := 0x3c6ef372fe94f82b#64, d := 0xa54ff53a5f1d36f1#64,
    e := 0x510e527fade682d1#64, f := 0x9b05688c2b3e6c1f#64, g := 0x1f83d9abfb41bd6b#64, h := 0x5be0cd19137e2179#64 }

/-- SHA-512 as an instance of the shared construction (R171 to R179). -/
def sha512Params : HashParams 64 :=
  { bsig0 := bsig0w64, bsig1 := bsig1w64, ssig0 := ssig0w64, ssig1 := ssig1w64,
    k := k512, iv := iv512 }

/-- R178: `compress512`. -/
def compress512 (hv : HashVars 64) (m : List Word64) : HashVars 64 := compress sha512Params hv m

/-- R175: `pad512`. -/
def pad512 (m : List Byte) : List Byte := padMessage 111 128 16 m

/-- R176, R179: the chaining value after `N = len(pad512(m)) div 128` blocks. -/
def sha512State (m : List Byte) : HashVars 64 :=
  absorbBlocks sha512Params ((pad512 m).length / 128) iv512 (words64 (pad512 m))

/-- R179: `SHA512(m)`, 64 bytes. -/
def sha512 (m : List Byte) : List Byte := bytesOfWords (sha512State m).toList

end Sys2Proof.Machine
end

