-- ==== Sys2Proof/Machine/Kdf.lean ====
section
/-! DEFINITION. HMAC-SHA-512 and PBKDF2 with the block's fixed parameters (spec/42_kdf.md R180 to R190). -/

namespace Sys2Proof.Machine

/-- R180: the 128-byte key block `K0`. -/
def keyBlock (key : List Byte) : List Byte :=
  if key.length ≤ 128 then key ++ zeros (128 - key.length) else sha512 key ++ zeros 64

/-- R181: 128 bytes of value 0x36. -/
def ipad : List Byte := List.replicate 128 0x36#8

/-- R181: 128 bytes of value 0x5C. -/
def opad : List Byte := List.replicate 128 0x5C#8

/-- R181: `HMAC512(K, text)`. -/
def hmac512 (key text : List Byte) : List Byte :=
  sha512 (xorBytes (keyBlock key) opad ++ sha512 (xorBytes (keyBlock key) ipad ++ text))

/-- The rounds `j = 2..c` of R185 and R189: `n` times `U <- PRF(P, U); T <- T xor U`. -/
def prfIterate (prf : List Byte → List Byte) : Nat → List Byte → List Byte → List Byte
  | 0, _, t => t
  | n + 1, u, t =>
    let u' := prf u
    prfIterate prf n u' (xorBytes t u')

/-- R185: one block `T_i` of PBKDF2 with iteration count `c`. -/
def pbkdf2Block (prf : List Byte → List Byte) (salt : List Byte) (c i : Nat) : List Byte :=
  let u := prf (salt ++ beBytes 4 i)
  prfIterate prf (c - 1) u u

/-- R185: PBKDF2 in general, `l = ceil(dkLen / hLen)` blocks cut to `dkLen` bytes. -/
def pbkdf2 (prf : List Byte → List Byte → List Byte) (hLen : Nat) (pwd salt : List Byte)
    (c dkLen : Nat) : List Byte :=
  (((List.range ((dkLen + hLen - 1) / hLen)).map
    (fun i => pbkdf2Block (prf pwd) salt c (i + 1))).flatten).take dkLen

/-- R190: the salt, the fixed eight bytes before the passphrase. -/
def kdfSalt (pass : List Byte) : List Byte := Config.saltPrefix ++ pass

/-- R189: `KDF(pwd, pass)`, 64 bytes. -/
def kdf (pwd pass : List Byte) : List Byte :=
  let u := hmac512 pwd (kdfSalt pass ++ beBytes 4 1)
  prfIterate (hmac512 pwd) (Config.kdfIter - 1) u u

/-- R182: the chaining value after the first block `K0 xor pad`, the same for every call with one key. -/
def padState (key pad : List Byte) : HashVars 64 :=
  compress512 iv512 (words64 (xorBytes (keyBlock key) pad))

/-- R182: SHA-512 of a message whose first 128 bytes have been absorbed into `hv` already; `rest`
are the bytes after them. -/
def sha512After (hv : HashVars 64) (rest : List Byte) : List Byte :=
  let tail := (pad512 (zeros 128 ++ rest)).drop 128
  bytesOfWords (absorbBlocks sha512Params (tail.length / 128) hv (words64 tail)).toList

/-- R182: HMAC started from the two precomputed chaining values. -/
def hmac512Shortcut (inner outer : HashVars 64) (text : List Byte) : List Byte :=
  sha512After outer (sha512After inner text)

/-- R182: the key derivation with both pad blocks compressed once. -/
def kdfShortcut (pwd pass : List Byte) : List Byte :=
  let inner := padState pwd ipad
  let outer := padState pwd opad
  let u := hmac512Shortcut inner outer (kdfSalt pass ++ beBytes 4 1)
  prfIterate (hmac512Shortcut inner outer) (Config.kdfIter - 1) u u

end Sys2Proof.Machine
end

