-- ==== Sys2Proof/Machine/Seed.lean ====
section
/-! DEFINITION. The `SEED` command (spec/42_kdf.md R191). -/

namespace Sys2Proof.Machine

/-- `ExecSEED` of R191 as a change of the block: `SEED[j] <- int(T[4j .. 4j+4])`, `SV <- 1`. -/
def Block.writeSeed (b : Block) : Block :=
  { b with seed := fillVector 16 0#32 (words32 (kdf b.pwdBytes b.passBytes)), sv := true }

/-- R191 `ExecSEED`; it always answers ok. -/
def procSeed (b : Block) : ExecResult := .ok b.writeSeed

/-- The completion of `SEED` (R191, R97). -/
def execSeed (s : State) : Host.Outcome State Fault Refusal := completion procSeed s

end Sys2Proof.Machine
end

