-- ==== Sys2Proof/Machine/Dispatch.lean ====
section
/-! DEFINITION. `exec i s`: the engine's `Complete` for the command `i` (spec/30_encoding.md R97), one arm per command. -/

namespace Sys2Proof.Machine

def exec (i : Instr) (s : State) : Host.Outcome State Fault Refusal :=
  match i with
  | .nop => Sys2Proof.Machine.execNop s
  | .hash => Sys2Proof.Machine.execHash s
  | .groups => Sys2Proof.Machine.execGroups s
  | .group k => Sys2Proof.Machine.execGroup k s
  | .encode => Sys2Proof.Machine.execEncode s
  | .seed => Sys2Proof.Machine.execSeed s
  | .clr => Sys2Proof.Machine.execClr s

end Sys2Proof.Machine
end

