-- ==== Sys2Proof/Machine/Engine.lean ====
section
/-! DEFINITION. The engine's step (spec/00_scope.md R15, spec/30_encoding.md R97). -/

namespace Sys2Proof.Machine

/-- The engine's step, for a state with `BUSY = 1`: the command in `CUR`, executed (R97). An illegal
word in `CUR`, which no run reaches (R51 (e)), stops the machine (log 5). -/
def engineStep (s : State) : Host.Outcome State Fault Refusal :=
  match s.block.fetchCommand with
  | .ok i => exec i s
  | .error _ => .fault (.curNotLegal s.block.cur)

/-- The engine's turn: `Complete` is enabled exactly when `BUSY = 1`; otherwise nothing happens (R15). -/
def engineTurn (s : State) : Host.Outcome State Fault Refusal :=
  if s.block.busy then engineStep s else .next s

end Sys2Proof.Machine
end

