-- ==== Sys2Proof/Machine/RegMap.lean ====
section
/-! DEFINITION. The register map of the 4096-byte window (spec/10_state.md R22) and the place of the
window in the platform's address space (spec/20_memory.md R78). -/

namespace Sys2Proof.Machine

/-- The registers of R22 by name. -/
inductive Reg where
  | cmd
  | status
  | ctrl
  | errcode
  | errinfo
  | msgLen
  | pwdLen
  | saltLen
  | ngroups
  | gsel
  | msg (j : Fin 8)
  | digest (j : Fin 8)
  | idx (i : Fin 24)
  | seed (j : Fin 16)
  | salt (j : Fin 64)
  | pwd (j : Fin 256)
deriving DecidableEq, Repr

/-- The offset column of R22. -/
def Reg.offset : Reg → Offset
  | .cmd => 0x000#12
  | .status => 0x004#12
  | .ctrl => 0x008#12
  | .errcode => 0x00C#12
  | .errinfo => 0x010#12
  | .msgLen => 0x014#12
  | .pwdLen => 0x018#12
  | .saltLen => 0x01C#12
  | .ngroups => 0x020#12
  | .gsel => 0x024#12
  | .msg j => BitVec.ofNat 12 (0x040 + 4 * j.val)
  | .digest j => BitVec.ofNat 12 (0x060 + 4 * j.val)
  | .idx i => BitVec.ofNat 12 (0x080 + 4 * i.val)
  | .seed j => BitVec.ofNat 12 (0x100 + 4 * j.val)
  | .salt j => BitVec.ofNat 12 (0x200 + 4 * j.val)
  | .pwd j => BitVec.ofNat 12 (0x400 + 4 * j.val)

/-- The access column of R22: the registers a host write is refused on (R69). -/
def Reg.readOnly : Reg → Bool
  | .errcode | .errinfo | .ngroups | .gsel => true
  | .digest _ | .idx _ | .seed _ => true
  | .cmd | .status | .ctrl | .msgLen | .pwdLen | .saltLen => false
  | .msg _ | .salt _ | .pwd _ => false

/-- The registers a host write is refused on while `BUSY = 1`, besides `CMD` (R68). -/
def Reg.isInput : Reg → Bool
  | .msgLen | .pwdLen | .saltLen => true
  | .msg _ | .salt _ | .pwd _ => true
  | .cmd | .status | .ctrl | .errcode | .errinfo | .ngroups | .gsel => false
  | .digest _ | .idx _ | .seed _ => false

/-- Register number `n` of a run of `count` registers, if it is one of them. -/
def regInRun (count : Nat) (mk : Fin count → Reg) (n : Nat) : Option Reg :=
  if h : n < count then some (mk ⟨n, h⟩) else none

/-- The register at a word number (offset divided by 4), none where R22 and R65 reserve the offset. -/
def regAtWord (n : Nat) : Option Reg :=
  if n < 0x010 then
    match n with
    | 0x000 => some .cmd
    | 0x001 => some .status
    | 0x002 => some .ctrl
    | 0x003 => some .errcode
    | 0x004 => some .errinfo
    | 0x005 => some .msgLen
    | 0x006 => some .pwdLen
    | 0x007 => some .saltLen
    | 0x008 => some .ngroups
    | 0x009 => some .gsel
    | _ => none
  else if n < 0x018 then regInRun 8 .msg (n - 0x010)
  else if n < 0x020 then regInRun 8 .digest (n - 0x018)
  else if n < 0x040 then regInRun 24 .idx (n - 0x020)
  else if n < 0x080 then regInRun 16 .seed (n - 0x040)
  else if n < 0x100 then regInRun 64 .salt (n - 0x080)
  else regInRun 256 .pwd (n - 0x100)

/-- The register at an aligned offset; none at a reserved or unaligned one (R22, R65). -/
def regAt (off : Offset) : Option Reg :=
  if off.toNat % 4 = 0 then regAtWord (off.toNat / 4) else none

/-- R65: the reserved offsets, the multiples of 4 in five ranges. -/
def reservedOffset (off : Offset) : Bool :=
  let n := off.toNat
  decide (n % 4 = 0) &&
    ((decide (0x028 ≤ n) && decide (n ≤ 0x03C)) || (decide (0x0E0 ≤ n) && decide (n ≤ 0x0FC)) ||
     (decide (0x140 ≤ n) && decide (n ≤ 0x1FC)) || (decide (0x300 ≤ n) && decide (n ≤ 0x3FC)) ||
     (decide (0x800 ≤ n) && decide (n ≤ 0xFFC)))

/-- R78: `off = address - BASE` for an address inside the window, none outside it. -/
def offsetOfAddress (address : Nat) : Option Offset :=
  if Config.base ≤ address ∧ address < Config.base + 4096 then
    some (BitVec.ofNat 12 (address - Config.base))
  else none

end Sys2Proof.Machine
end

