-- ==== Sys2Proof/Machine/Port.lean ====
section
/-! DEFINITION. The host port: reads, writes, issue and acceptance of commands
(spec/20_memory.md R63 to R81, spec/30_encoding.md R94 to R96, spec/60_exceptions.md R211, R212). -/

namespace Sys2Proof.Machine

/-- The causes of an access fault (R212). The port reports none of them (R72, R211): they name
the branch of R70 that refused. -/
inductive AccessCause where
  /-- AF1: size other than 4, or offset not a multiple of 4. -/
  | sizeOrAlignment
  /-- AF2: reserved offset. -/
  | reservedOffset
  /-- AF3: write to a read-only register. -/
  | readOnlyRegister
  /-- AF4: write to `CMD` while `BUSY = 1`. -/
  | cmdWhileBusy
  /-- AF5: write to `CMD` while `ERR = 1`. -/
  | cmdWhileError
  /-- AF6: write to an input register while `BUSY = 1`. -/
  | inputWhileBusy
  /-- AF7: length above the buffer's capacity. -/
  | lengthTooLarge
deriving DecidableEq, Repr

/-- The value column of R64: what a host read of a register returns. -/
def Block.regValue (b : Block) : Reg → Word
  | .cmd => b.cur
  | .status => b.statusWord
  | .ctrl => b.ctrlWord
  | .errcode => b.errcode.setWidth 32
  | .errinfo => b.errinfo
  | .msgLen => b.msgLen.setWidth 32
  | .pwdLen => b.pwdLen.setWidth 32
  | .saltLen => b.saltLen.setWidth 32
  | .ngroups => b.ngroups.setWidth 32
  | .gsel => b.gsel.setWidth 32
  | .msg j => b.msg[j.val]
  | .digest j => b.digest[j.val]
  | .idx i => (b.idx[i.val]).setWidth 32
  | .seed j => b.seed[j.val]
  | .salt j => b.salt[j.val]
  | .pwd j => b.pwd[j.val]

/-- R63: the only legal access is 4 bytes wide at a multiple of 4. -/
def legalShape (off : Offset) (size : Nat) : Bool :=
  decide (size = 4) && decide (off.toNat % 4 = 0)

/-- R64: `MemRead(off, size)`; a read changes no state, so the answer is a value or a cause. -/
def memRead (b : Block) (off : Offset) (size : Nat) : Except AccessCause Word :=
  if legalShape off size = false then .error .sizeOrAlignment
  else
    match regAt off with
    | none => .error .reservedOffset
    | some r => .ok (b.regValue r)

/-- R96: what the acceptance of each command clears, all the results it is going to produce. -/
def acceptClears (b : Block) : Instr → Block
  | .nop => b
  | .hash => b.invalM
  | .groups => b.clearIndices
  | .group _ => b.clearGroupSelect
  | .encode => b.invalM
  | .seed => b.invalK
  | .clr => b

/-- R96: `Accept(w)` for the command `i` that `w` decodes to. -/
def accept (b : Block) (w : Word) (i : Instr) : Block :=
  acceptClears { b with cur := w, busy := true, done := false } i

/-- R95: `IllegalCmd(w)`. -/
def illegalCmd (b : Block) (w : Word) : Block := b.raiseFault .illegalCmd w

/-- R94: `Issue(w)`; decoding looks at `w` only. -/
def issue (b : Block) (w : Word) : Block :=
  match decode w with
  | .ok i => accept b w i
  | .error _ => illegalCmd b w

/-- R24, R70: the write-one-to-clear of `STATUS`; bits other than 1 and 2 are ignored. -/
def writeStatus (b : Block) (v : Word) : Block :=
  let b1 := if v.getLsbD 1 then b.ackDone else b
  if v.getLsbD 2 then b1.ackFault else b1

/-- R34, R70: the write of `CTRL` stores bits 1:0. -/
def writeCtrl (b : Block) (v : Word) : Block :=
  { b with ieDone := v.getLsbD 0, ieErr := v.getLsbD 1 }

/-- R70: the write of one register, after the size, the offset and the read-only test. -/
def writeReg (b : Block) (r : Reg) (v : Word) : Except AccessCause Block :=
  match r with
  | .status => .ok (writeStatus b v)
  | .ctrl => .ok (writeCtrl b v)
  | .cmd =>
    if b.busy then .error .cmdWhileBusy
    else if b.err then .error .cmdWhileError
    else .ok (issue b v)
  | .msgLen =>
    if b.busy then .error .inputWhileBusy
    else if v.toNat > Config.msgCap then .error .lengthTooLarge
    else .ok { b with msgLen := v.setWidth 6 }.invalM
  | .pwdLen =>
    if b.busy then .error .inputWhileBusy
    else if v.toNat > Config.pwdCap then .error .lengthTooLarge
    else .ok { b with pwdLen := v.setWidth 11 }.invalK
  | .saltLen =>
    if b.busy then .error .inputWhileBusy
    else if v.toNat > Config.saltCap then .error .lengthTooLarge
    else .ok { b with saltLen := v.setWidth 9 }.invalK
  | .msg j =>
    if b.busy then .error .inputWhileBusy
    else .ok { b with msg := b.msg.set j.val v }.invalM
  | .salt j =>
    if b.busy then .error .inputWhileBusy
    else .ok { b with salt := b.salt.set j.val v }.invalK
  | .pwd j =>
    if b.busy then .error .inputWhileBusy
    else .ok { b with pwd := b.pwd.set j.val v }.invalK
  | .errcode | .errinfo | .ngroups | .gsel => .error .readOnlyRegister
  | .digest _ | .idx _ | .seed _ => .error .readOnlyRegister

/-- R70: `MemWrite(off, size, v)`, the checks in the order written there (R63 first, R216). -/
def memWrite (b : Block) (off : Offset) (size : Nat) (v : Word) : Except AccessCause Block :=
  if legalShape off size = false then .error .sizeOrAlignment
  else
    match regAt off with
    | none => .error .reservedOffset
    | some r => if r.readOnly then .error .readOnlyRegister else writeReg b r v

/-- The port's answer to a read (R60, R211). -/
def readResponse (b : Block) (off : Offset) (size : Nat) : Response :=
  match memRead b off size with
  | .ok v => .readOk v
  | .error _ => .accessFault off

/-- One host read as a step: the block stays as it is, the answer is given (R64, R211). -/
def hostRead (off : Offset) (size : Nat) (s : State) : State :=
  { s with responses := readResponse s.block off size :: s.responses }

/-- One host write as a step: the register and its side effects together (R73), or an access fault
that leaves the block unchanged (R211). -/
def hostWrite (off : Offset) (size : Nat) (v : Word) (s : State) : State :=
  match memWrite s.block off size v with
  | .ok b => { s with block := b, responses := .writeOk :: s.responses }
  | .error _ => { s with responses := .accessFault off :: s.responses }

/-- One reset step (R240, R242): every element of the block takes its reset value, in any state. -/
def resetStep (s : State) : State := { s with block := Block.reset }

end Sys2Proof.Machine
end

