-- ==== Sys2Proof/Machine/Step.lean ====
section
/-! DEFINITION. One atomic step of the whole machine (spec/00_scope.md R15, spec/20_memory.md R74):
a host access, a reset, or the engine's completion. -/

namespace Sys2Proof.Machine

/-- One step. The first pending event happens; with nothing pending the engine has its turn, so a
command accepted is always completed (R258), and an idle block stays as it is (log 1). -/
def step (s : State) : Host.Outcome State Fault Refusal :=
  match s.pending with
  | [] => engineTurn s
  | .read off size :: rest => .next (hostRead off size { s with pending := rest })
  | .write off size v :: rest => .next (hostWrite off size v { s with pending := rest })
  | .reset :: rest => .next (resetStep { s with pending := rest })
  | .engine :: rest => engineTurn { s with pending := rest }

/-- The place the engine fetches its next command from is the latch `CUR` with `BUSY = 1` (R21, R77,
R97): put the `nbits` low bits of `w` there and give the engine the next turn (log 3). -/
def State.withFetchWord (s : State) (nbits w : Nat) : State :=
  { s with
    block := { s.block with cur := BitVec.ofNat 32 (w % 2 ^ nbits), busy := true }
    pending := match s.pending with
      | [] => []
      | e :: rest => .engine :: e :: rest }

end Sys2Proof.Machine
end

