-- ==== Sys2Proof/Machine/HostProgram.lean ====
section
/-! DEFINITION. The notation for host programs, its expansion into port accesses and its encoding as a
list of transactions (spec/30_encoding.md R101, R102; log 15). -/

namespace Sys2Proof.Machine

/-- The lines of R101. An offset stands for a register's name (`Reg.offset`); P5 of
spec/95_test_vectors.md also writes bare offsets. `wait` carries how many polls see `BUSY = 1`
before the engine's step (log 1); comments are no action. -/
inductive HostLine where
  | wr (off : Offset) (v : Word)
  | rd (off : Offset)
  | cmd (i : Instr)
  | wait (polls : Nat)
  | ack
  | ldmsg (s : List Byte)
  | ldpwd (s : List Byte)
  | ldsalt (s : List Byte)
deriving DecidableEq, Repr

/-- The conditions R101 sets on a line: a loaded byte string fits its buffer, a command is well formed. -/
def HostLine.wf : HostLine → Bool
  | .cmd i => i.wf
  | .ldmsg s => decide (s.length ≤ Config.msgCap)
  | .ldpwd s => decide (s.length ≤ Config.pwdCap)
  | .ldsalt s => decide (s.length ≤ Config.saltCap)
  | .wr _ _ | .rd _ | .wait _ | .ack => true

/-- A 4-byte write (R13). -/
def writeEvent (off : Offset) (v : Word) : Event := .write off 4 v

/-- A 4-byte read (R13). -/
def readEvent (off : Offset) : Event := .read off 4

/-- The words of a byte string padded with zero bytes on the right,
`int((s ++ zeros(3))[4j..4j+4])` for `j = 0 .. ceil(L/4) - 1` (R101). -/
def paddedWords (s : List Byte) : List Word := words32 (s ++ zeros 3)

/-- The pseudo lines `ldmsg`, `ldpwd`, `ldsalt`: the words in rising order from offset `first`, then
the length (R101). -/
def loadEvents (first : Nat) (lenReg : Reg) (s : List Byte) : List Event :=
  (paddedWords s).mapIdx (fun j w => writeEvent (BitVec.ofNat 12 (first + 4 * j)) w) ++
    [writeEvent lenReg.offset (BitVec.ofNat 32 s.length)]

/-- R101: what a line stands for, with the engine's step of `wait` at its place. -/
def HostLine.events : HostLine → List Event
  | .wr off v => [writeEvent off v]
  | .rd off => [readEvent off]
  | .cmd i => [writeEvent Reg.cmd.offset (encode i)]
  | .wait polls =>
    List.replicate polls (readEvent Reg.status.offset) ++ [.engine, readEvent Reg.status.offset]
  | .ack => [writeEvent Reg.status.offset 0x00000006#32]
  | .ldmsg s => loadEvents 0x040 .msgLen s
  | .ldpwd s => loadEvents 0x400 .pwdLen s
  | .ldsalt s => loadEvents 0x200 .saltLen s

/-- One hexadecimal digit, upper case as in the examples of R102. -/
def hexDigit (n : Nat) : Char := "0123456789ABCDEF".toList.getD n '0'

/-- The `digits` low hexadecimal digits of a number, most significant first. -/
def hexDigits (digits n : Nat) : List Char :=
  (List.range digits).map (fun i => hexDigit (n / 16 ^ (digits - 1 - i) % 16))

/-- R102: `W <offset> <data>` for a write and `R <offset>` for a read, offsets as three hexadecimal
digits, data as eight. A reset and an engine step are no port transaction. -/
def Event.transaction : Event → Option (List Char)
  | .read off _ => some ("R ".toList ++ hexDigits 3 off.toNat)
  | .write off _ v => some ("W ".toList ++ hexDigits 3 off.toNat ++ " ".toList ++ hexDigits 8 v.toNat)
  | .reset => none
  | .engine => none

/-- R102: the encoding of a host program, its port transactions after the expansion. -/
def encodeProgram (lines : List HostLine) : List (List Char) :=
  (lines.flatMap HostLine.events).filterMap Event.transaction

/-- A line with its annotation `; access fault expected` (R101). -/
structure ProgramLine where
  line : HostLine
  faultExpected : Bool
deriving DecidableEq, Repr

/-- Did the last answered access of a state end in an access fault? -/
def State.lastAccessFaulted (s : State) : Bool :=
  match s.responses with
  | .accessFault _ :: _ => true
  | _ => false

/-- A line's events one after the other. An access fault that was not announced ends the line; the
flag says whether the program goes on (R101). -/
def runEvents (faultExpected : Bool) :
    List Event → State → Host.Outcome (State × Bool) Fault Refusal
  | [], s => .next (s, true)
  | e :: rest, s =>
    match step { s with pending := [e] } with
    | .next s' =>
      if e.transaction.isSome && s'.lastAccessFaulted && !faultExpected then .next (s', false)
      else runEvents faultExpected rest s'
    | .fault f => .fault f
    | .refused r => .refused r

/-- A host program from a state (R101): its lines in order, "a response of access fault to any line
ends the program" unless the line announces it. R74 lets a completion fall anywhere after its
acceptance; here the engine moves inside a `wait` line and nowhere else (DESIGN CHOICE, log 18). -/
def runProgram : List ProgramLine → State → Host.Outcome State Fault Refusal
  | [], s => .next s
  | l :: rest, s =>
    match runEvents l.faultExpected l.line.events s with
    | .next (s', true) => runProgram rest s'
    | .next (s', false) => .next s'
    | .fault f => .fault f
    | .refused r => .refused r

end Sys2Proof.Machine
end

