-- ==== Sys2Proof/Safety.lean ====
section
/-! DEFINITION. What claims are stated in: the invariants of a reachable state (spec/10_state.md R51 and
the rules it names), the end of a run (spec/70_reset_and_hazards.md R260), and states that agree on
one side of the block. -/

namespace Sys2Proof.Machine

/-- The results the command in execution will write are cleared while it runs (R75, R96). -/
def Block.resultsCleared (b : Block) : Instr → Prop
  | .nop => True
  | .hash => b.dv = false ∧ b.iv = false ∧ b.gv = false
  | .groups => b.iv = false
  | .group _ => b.gv = false
  | .encode => b.dv = false ∧ b.iv = false ∧ b.gv = false
  | .seed => b.sv = false
  | .clr => True

/-- The invariants of every reachable state of the block: R51 (a) to (e), with the implications of
R28 to R31 it names, and the facts of R75 and R97 about a command in execution. The bounds on
`IDX[i]` and `GSEL` of (a) hold by their 11-bit types. -/
structure BlockInv (b : Block) : Prop where
  /-- (a) `MSG_LEN <= 32`. -/
  msgLen_le : b.msgLen.toNat ≤ Config.msgCap
  /-- (a) `PWD_LEN <= 1024`. -/
  pwdLen_le : b.pwdLen.toNat ≤ Config.pwdCap
  /-- (a) `SALT_LEN <= 256`. -/
  saltLen_le : b.saltLen.toNat ≤ Config.saltCap
  /-- (a) `NGROUPS <= 24`. -/
  ngroups_le : b.ngroups.toNat ≤ Config.nidx
  /-- (a) `ERRCODE <= 3`. -/
  errcode_le : b.errcode.toNat ≤ 3
  /-- (b) `ERR = 1` if and only if `ERRCODE != 0`. -/
  err_iff : b.err = true ↔ b.errcode ≠ 0#8
  /-- (b) `ERRCODE = 0` implies `ERRINFO = 0`. -/
  errinfo_zero : b.errcode = 0#8 → b.errinfo = 0#32
  /-- (c), R28: a valid digest is the digest of the current message. -/
  digest_valid : b.dv = true → b.digest.toList = words32 (sha256 b.msgBytes)
  /-- (c), R28: an invalid digest reads 0. -/
  digest_zero : b.dv = false → b.digest = Vector.replicate 8 0#32
  /-- (d), R29: `IV = 1` implies `DV = 1`. -/
  iv_dv : b.iv = true → b.dv = true
  /-- (c), R29: the group count of the current message. -/
  ngroups_valid : b.iv = true → b.ngroups.toNat = groupCount b.msgLen.toNat
  /-- (c), R29: each valid index is its group of the concatenated buffer. -/
  idx_valid : b.iv = true → ∀ i : Fin 24, i.val < b.ngroups.toNat →
    groupOf b.concatBuffer i.val = .ok b.idx[i.val]
  /-- R44: the entries at and above `NGROUPS` are 0. -/
  idx_above : ∀ i : Fin 24, b.ngroups.toNat ≤ i.val → b.idx[i.val] = 0#11
  /-- (c), R29: `IV = 0` implies `NGROUPS = 0` and every `IDX[i] = 0`. -/
  idx_zero : b.iv = false → b.ngroups = 0#5 ∧ b.idx = Vector.replicate 24 0#11
  /-- (d), R30: `GV = 1` implies `DV = 1`. -/
  gv_dv : b.gv = true → b.dv = true
  /-- (c), R30: a valid `GSEL` is some group of the concatenated buffer (DEDUCED, log 14). -/
  gsel_valid : b.gv = true → ∃ k, k < 256 ∧ groupOf b.concatBuffer k = .ok b.gsel
  /-- (c), R30: it is group `CUR[15:8]` while the last accepted command is the `GROUP` that chose it
  (DEDUCED, log 14). -/
  gsel_cur : b.gv = true → opField b.cur = 0x03#8 →
    groupOf b.concatBuffer (kField b.cur).toNat = .ok b.gsel
  /-- R41: `GSEL` is 0 when `GV = 0`. -/
  gsel_zero : b.gv = false → b.gsel = 0#11
  /-- (c), R31: a valid seed is the seed of the current password and passphrase. -/
  seed_valid : b.sv = true → b.seed.toList = words32 (kdf b.pwdBytes b.passBytes)
  /-- (c), R31: `SV = 0` implies every `SEED[j] = 0`. -/
  seed_zero : b.sv = false → b.seed = Vector.replicate 16 0#32
  /-- (e) `CUR` is a legal command word. -/
  cur_legal : legalWord b.cur = true
  /-- R97: `ERR` is 0 while a command is in execution. -/
  busy_err : b.busy = true → b.err = false
  /-- R75: `DONE` reads 0 while a command is in execution. -/
  busy_done : b.busy = true → b.done = false
  /-- R75: so do the results that command will write. -/
  busy_cleared : b.busy = true → ∀ i, decode b.cur = .ok i → b.resultsCleared i

/-- The invariants of a reachable state; the model's own fields may hold anything. -/
def State.Inv (s : State) : Prop := BlockInv s.block

/-- R260: a run is over when the host has performed its last access and `BUSY = 0`. That rule does not
say whether a reset still to come, or a turn of the idle engine left in the list, keeps the run open;
here no event at all may be pending, of whatever kind (DESIGN CHOICE, log 19). -/
def State.runOver (s : State) : Prop := s.pending = [] ∧ s.block.busy = false

/-- The state in which the event `e` happens next and everything else is as in `s`. -/
def State.withNext (s : State) (e : Event) : State := { s with pending := e :: s.pending }

/-- The state after a host access answered by `r` that left the block `b`. -/
def State.answered (s : State) (b : Block) (r : Response) : State :=
  { s with block := b, responses := r :: s.responses }

/-- The machine after `n` steps (Host/Core.lean). -/
def runSteps (n : Nat) (s : State) : Host.Outcome State Fault Refusal :=
  Host.Core.run Sys2Proof.core n s

/-- Every register of the message side is the same in both blocks (R49, R50). -/
def Block.sameMessageSide (b c : Block) : Prop :=
  b.msg = c.msg ∧ b.msgLen = c.msgLen ∧ b.digest = c.digest ∧ b.dv = c.dv ∧
    b.idx = c.idx ∧ b.ngroups = c.ngroups ∧ b.iv = c.iv ∧ b.gsel = c.gsel ∧ b.gv = c.gv

/-- Every register of the seed side is the same in both blocks (R49, R50). -/
def Block.sameSeedSide (b c : Block) : Prop :=
  b.pwd = c.pwd ∧ b.pwdLen = c.pwdLen ∧ b.salt = c.salt ∧ b.saltLen = c.saltLen ∧
    b.seed = c.seed ∧ b.sv = c.sv

/-- Two blocks that differ at most in buffer bytes at or beyond the lengths (R42, R46, R47, R48). -/
def Block.agreeBelowLengths (b c : Block) : Prop :=
  c = { b with msg := c.msg, pwd := c.pwd, salt := c.salt } ∧
    b.msgBytes = c.msgBytes ∧ b.pwdBytes = c.pwdBytes ∧ b.passBytes = c.passBytes

end Sys2Proof.Machine
end

