-- ==== Sys2Proof/Certificates/Slice0/Obligations.lean ====
section
/-! DEFINITION. The statements about the model, one `Obligations.<Name>` each. A docstring names the
rule of spec/ a statement formalises; "log <n>" is notes/assumptions/<n>.md. -/

open Sys2Proof Sys2Proof.Machine

/-! ### Encoding -/

/-- R91, R98, R104: a word decodes to `i` exactly when `i` is well formed and the word is its encoding, so
decoding and encoding are inverse to each other, every value of `k` and every bit of the word included. -/
def Obligations.DecodeAndEncodeAreInverse : Prop :=
  ∀ (w : Word) (i : Instr), decode w = .ok i ↔ (i.wf = true ∧ encode i = w)

/-- R92: the legal words, by the fields, by the match/mask pairs, and counted; a word decodes exactly
when it is legal. -/
def Obligations.LegalWordsAreThoseOfTheTable : Prop :=
  (∀ w : Word, (∃ i, decode w = .ok i) ↔
      (w.extractLsb' 16 16 = 0#16 ∧
        ((w.extractLsb' 0 8 ∈ [0x00#8, 0x01#8, 0x02#8, 0x04#8, 0x05#8, 0x06#8] ∧
            w.extractLsb' 8 8 = 0#8) ∨
          w.extractLsb' 0 8 = 0x03#8))) ∧
  (∀ w : Word,
      (decode w = .ok .nop ↔ w &&& 0xFFFFFFFF#32 = 0x00000000#32) ∧
      (decode w = .ok .hash ↔ w &&& 0xFFFFFFFF#32 = 0x00000001#32) ∧
      (decode w = .ok .groups ↔ w &&& 0xFFFFFFFF#32 = 0x00000002#32) ∧
      ((∃ k, decode w = .ok (.group k)) ↔ w &&& 0xFFFF00FF#32 = 0x00000003#32) ∧
      (decode w = .ok .encode ↔ w &&& 0xFFFFFFFF#32 = 0x00000004#32) ∧
      (decode w = .ok .seed ↔ w &&& 0xFFFFFFFF#32 = 0x00000005#32) ∧
      (decode w = .ok .clr ↔ w &&& 0xFFFFFFFF#32 = 0x00000006#32)) ∧
  legalWordList.length = 262 ∧ legalWordList.Nodup ∧
  (∀ w : Word, w ∈ legalWordList ↔ ∃ i, decode w = .ok i)

/-- R104: words written out from the table decode to the command they stand for, and three illegal
ones (R99) do not decode. -/
def Obligations.WrittenOutWordsDecode : Prop :=
  decode 0x00000000#32 = .ok .nop ∧ decode 0x00000001#32 = .ok .hash ∧
  decode 0x00000002#32 = .ok .groups ∧ decode 0x00000B03#32 = .ok (.group 11) ∧
  decode 0x0000FF03#32 = .ok (.group 255) ∧ decode 0x00000004#32 = .ok .encode ∧
  decode 0x00000005#32 = .ok .seed ∧ decode 0x00000006#32 = .ok .clr ∧
  decode 0x00010003#32 = .error .reservedBitsSet ∧
  decode 0x00000102#32 = .error .operandNotZero ∧
  decode 0x00000007#32 = .error .opcodeUnassigned

/-! ### The step -/

/-- R15, R97: while `BUSY = 1` and the word in `CUR` decodes to `i`, the engine's turn is `exec i`:
with nothing pending on the state itself, with an engine turn pending on the state without it. That
the engine moves at these points is the model's choice (log 1). -/
def Obligations.StepRunsTheDecodedCommand : Prop :=
  ∀ (s : State) (i : Instr), s.block.busy = true → decode s.block.cur = .ok i →
    (s.pending = [] → step s = exec i s) ∧
    step (s.withNext .engine) = exec i s

/-- R15, R74: what a step is besides a completion. A host access and a reset take the first pending
event and nothing else; the engine does nothing while `BUSY = 0`; with nothing pending and `BUSY = 0`
the machine stays as it is (log 1: the order of events is the model's choice). -/
def Obligations.StepPerformsTheNextEvent : Prop :=
  ∀ s : State,
    (∀ off size, step (s.withNext (.read off size)) = .next (hostRead off size s)) ∧
    (∀ off size v, step (s.withNext (.write off size v)) = .next (hostWrite off size v s)) ∧
    step (s.withNext .reset) = .next (resetStep s) ∧
    (s.block.busy = false → step (s.withNext .engine) = .next s) ∧
    (s.block.busy = false → s.pending = [] → step s = .next s)

/-! ### The register map and reads -/

/-- R22, R65: every register stands at its offset alone, and the offsets without a register are the
unaligned ones and the multiples of 4 in the five reserved ranges. -/
def Obligations.RegisterMapIsOneToOne : Prop :=
  (∀ r : Reg, regAt r.offset = some r) ∧
  (∀ (off : Offset) (r : Reg), regAt off = some r → r.offset = off) ∧
  (∀ off : Offset, regAt off = none ↔
    (off.toNat % 4 ≠ 0 ∨ (0x028 ≤ off.toNat ∧ off.toNat ≤ 0x03F) ∨
      (0x0E0 ≤ off.toNat ∧ off.toNat ≤ 0x0FF) ∨ (0x140 ≤ off.toNat ∧ off.toNat ≤ 0x1FF) ∨
      (0x300 ≤ off.toNat ∧ off.toNat ≤ 0x3FF) ∨ 0x800 ≤ off.toNat))

/-- R78: `BASE` is a multiple of 4096, and an address of the window names exactly the offset
`address - BASE`; no other address names one. -/
def Obligations.WindowAddressesNameOffsets : Prop :=
  Config.base % 4096 = 0 ∧
  ∀ (address : Nat) (off : Offset),
    offsetOfAddress address = some off ↔ address = Config.base + off.toNat

/-- R64: what a 4-byte read returns at every offset, in every state; a reserved offset gives an access
fault; the block and the remaining events stay as they are. -/
def Obligations.ReadReturnsTheRegister : Prop :=
  ∀ (s : State) (off : Offset), ∃ a : Response,
    step (s.withNext (.read off 4)) = .next (s.answered s.block a) ∧
    (off.toNat % 4 = 0 →
      (off.toNat = 0x000 → a = .readOk s.block.cur) ∧
      (off.toNat = 0x004 → a = .readOk (0#24 ++ BitVec.ofBool s.block.entOk ++
        BitVec.ofBool s.block.sv ++ BitVec.ofBool s.block.gv ++ BitVec.ofBool s.block.iv ++
        BitVec.ofBool s.block.dv ++ BitVec.ofBool s.block.err ++ BitVec.ofBool s.block.done ++
        BitVec.ofBool s.block.busy)) ∧
      (off.toNat = 0x008 → a = .readOk (0#30 ++ BitVec.ofBool s.block.ieErr ++
        BitVec.ofBool s.block.ieDone)) ∧
      (off.toNat = 0x00C → a = .readOk (s.block.errcode.setWidth 32)) ∧
      (off.toNat = 0x010 → a = .readOk s.block.errinfo) ∧
      (off.toNat = 0x014 → a = .readOk (s.block.msgLen.setWidth 32)) ∧
      (off.toNat = 0x018 → a = .readOk (s.block.pwdLen.setWidth 32)) ∧
      (off.toNat = 0x01C → a = .readOk (s.block.saltLen.setWidth 32)) ∧
      (off.toNat = 0x020 → a = .readOk (s.block.ngroups.setWidth 32)) ∧
      (off.toNat = 0x024 → a = .readOk (s.block.gsel.setWidth 32)) ∧
      (∀ j : Fin 8, off.toNat = 0x040 + 4 * j.val → a = .readOk s.block.msg[j.val]) ∧
      (∀ j : Fin 8, off.toNat = 0x060 + 4 * j.val → a = .readOk s.block.digest[j.val]) ∧
      (∀ i : Fin 24, off.toNat = 0x080 + 4 * i.val →
        a = .readOk ((s.block.idx[i.val]).setWidth 32)) ∧
      (∀ j : Fin 16, off.toNat = 0x100 + 4 * j.val → a = .readOk s.block.seed[j.val]) ∧
      (∀ j : Fin 64, off.toNat = 0x200 + 4 * j.val → a = .readOk s.block.salt[j.val]) ∧
      (∀ j : Fin 256, off.toNat = 0x400 + 4 * j.val → a = .readOk s.block.pwd[j.val]) ∧
      (reservedOffset off = true → a = .accessFault off))

/-- R33: `ENT_OK` is 1 exactly when `MSG_LEN` is 16, 20, 24, 28 or 32, that is when `8 * MSG_LEN` bits
satisfy `bits % 32 == 0 && 128 <= bits <= 256`; it is bit 7 of `STATUS`. -/
def Obligations.EntropyLengthFlag : Prop :=
  ∀ b : Block,
    (b.statusWord.getLsbD 7 = true ↔ b.msgLen.toNat ∈ [16, 20, 24, 28, 32]) ∧
    (b.statusWord.getLsbD 7 = true ↔
      ((8 * b.msgLen.toNat) % 32 = 0 ∧ 128 ≤ 8 * b.msgLen.toNat ∧ 8 * b.msgLen.toNat ≤ 256))

/-- R75: what a read sees while a command is in execution, in a state that satisfies the invariants:
`BUSY` 1 and `DONE` and `ERR` 0 in `STATUS`, and 0 in every result the command will write, its valid
flag included. -/
def Obligations.ReadsDuringExecution : Prop :=
  ∀ (s : State) (i : Instr), s.Inv → s.block.busy = true → decode s.block.cur = .ok i →
    s.block.statusWord.getLsbD 0 = true ∧ s.block.statusWord.getLsbD 1 = false ∧
    s.block.statusWord.getLsbD 2 = false ∧
    (i = .hash ∨ i = .encode →
      s.block.statusWord.getLsbD 3 = false ∧ s.block.statusWord.getLsbD 4 = false ∧
      s.block.statusWord.getLsbD 5 = false ∧
      (∀ j : Fin 8, s.block.regValue (.digest j) = 0#32) ∧
      (∀ n : Fin 24, s.block.regValue (.idx n) = 0#32) ∧
      s.block.regValue .ngroups = 0#32 ∧ s.block.regValue .gsel = 0#32) ∧
    (i = .groups →
      s.block.statusWord.getLsbD 4 = false ∧
      (∀ n : Fin 24, s.block.regValue (.idx n) = 0#32) ∧ s.block.regValue .ngroups = 0#32) ∧
    (∀ k, i = .group k →
      s.block.statusWord.getLsbD 5 = false ∧ s.block.regValue .gsel = 0#32) ∧
    (i = .seed →
      s.block.statusWord.getLsbD 6 = false ∧
      ∀ j : Fin 16, s.block.regValue (.seed j) = 0#32)

/-! ### Access faults -/

/-- R63: an access of another size than 4 bytes, or at an offset that is no multiple of 4, is an access
fault and changes no state of the block, whatever the direction. -/
def Obligations.WrongSizeOrAlignmentFaults : Prop :=
  ∀ (s : State) (off : Offset) (size : Nat) (v : Word), (size ≠ 4 ∨ off.toNat % 4 ≠ 0) →
    step (s.withNext (.read off size)) = .next (s.answered s.block (.accessFault off)) ∧
    step (s.withNext (.write off size v)) = .next (s.answered s.block (.accessFault off))

/-- R65: a read or a write at a multiple of 4 in a reserved range is an access fault with no state
change: neither read as zero nor dropped silently. -/
def Obligations.ReservedOffsetsFault : Prop :=
  ∀ (s : State) (off : Offset) (v : Word), off.toNat % 4 = 0 →
    ((0x028 ≤ off.toNat ∧ off.toNat ≤ 0x03C) ∨ (0x0E0 ≤ off.toNat ∧ off.toNat ≤ 0x0FC) ∨
      (0x140 ≤ off.toNat ∧ off.toNat ≤ 0x1FC) ∨ (0x300 ≤ off.toNat ∧ off.toNat ≤ 0x3FC) ∨
      (0x800 ≤ off.toNat ∧ off.toNat ≤ 0xFFC)) →
    step (s.withNext (.read off 4)) = .next (s.answered s.block (.accessFault off)) ∧
    step (s.withNext (.write off 4 v)) = .next (s.answered s.block (.accessFault off))

/-- R69: a write to `ERRCODE`, `ERRINFO`, `NGROUPS`, `GSEL`, a `DIGEST[j]`, an `IDX[i]` or a `SEED[j]` is an
access fault with no state change; a write to `STATUS` is not, at any time, nor is a write to `CMD`
while `BUSY = 0` and `ERR = 0`. -/
def Obligations.ReadOnlyRegistersRefuseWrites : Prop :=
  ∀ (s : State) (v : Word),
    (∀ off : Offset,
      (off ∈ [0x00C#12, 0x010#12, 0x020#12, 0x024#12] ∨
        (∃ j : Fin 8, off.toNat = 0x060 + 4 * j.val) ∨
        (∃ i : Fin 24, off.toNat = 0x080 + 4 * i.val) ∨
        (∃ j : Fin 16, off.toNat = 0x100 + 4 * j.val)) →
      step (s.withNext (.write off 4 v)) = .next (s.answered s.block (.accessFault off))) ∧
    (∃ b, step (s.withNext (.write 0x004#12 4 v)) = .next (s.answered b .writeOk)) ∧
    (s.block.busy = false → s.block.err = false →
      ∃ b, step (s.withNext (.write 0x000#12 4 v)) = .next (s.answered b .writeOk))

/-- R66: a length above the capacity is an access fault with no state change, all 32 bits compared. -/
def Obligations.LengthAboveCapacityFaults : Prop :=
  ∀ (s : State) (v : Word),
    (v.toNat > 32 →
      step (s.withNext (.write 0x014#12 4 v)) = .next (s.answered s.block (.accessFault 0x014#12))) ∧
    (v.toNat > 1024 →
      step (s.withNext (.write 0x018#12 4 v)) = .next (s.answered s.block (.accessFault 0x018#12))) ∧
    (v.toNat > 256 →
      step (s.withNext (.write 0x01C#12 4 v)) = .next (s.answered s.block (.accessFault 0x01C#12)))

/-- R67: a write to `CMD` while `BUSY = 1` or `ERR = 1` is an access fault with no state change, whatever
the word. -/
def Obligations.CommandRegisterLock : Prop :=
  ∀ (s : State) (w : Word), (s.block.busy = true ∨ s.block.err = true) →
    step (s.withNext (.write 0x000#12 4 w)) = .next (s.answered s.block (.accessFault 0x000#12))

/-- R68: while `BUSY = 1` every write to a length or a buffer word is an access fault with no state change,
whatever the command in execution; while `BUSY = 0` these writes are accepted whatever `ERR` is (a
length only up to its capacity, R66). -/
def Obligations.InputLock : Prop :=
  ∀ (s : State) (off : Offset) (v : Word),
    (off ∈ [0x014#12, 0x018#12, 0x01C#12] ∨ (∃ j : Fin 8, off.toNat = 0x040 + 4 * j.val) ∨
      (∃ j : Fin 64, off.toNat = 0x200 + 4 * j.val) ∨
      (∃ j : Fin 256, off.toNat = 0x400 + 4 * j.val)) →
    (s.block.busy = true →
      step (s.withNext (.write off 4 v)) = .next (s.answered s.block (.accessFault off))) ∧
    (s.block.busy = false → (off = 0x014#12 → v.toNat ≤ 32) → (off = 0x018#12 → v.toNat ≤ 1024) →
      (off = 0x01C#12 → v.toNat ≤ 256) →
      ∃ b, step (s.withNext (.write off 4 v)) = .next (s.answered b .writeOk))

/-- R212, R211: the causes AF1 to AF7 are all there are. A write is answered by an access fault exactly
when one of them holds, and then the block is unchanged; otherwise it is answered OK. A read of a
defined register never faults: it is answered by the register's value. -/
def Obligations.AccessFaultCausesAreComplete : Prop :=
  (∀ (s : State) (off : Offset) (size : Nat) (v : Word),
    ((size ≠ 4 ∨ off.toNat % 4 ≠ 0 ∨ regAt off = none ∨
        (∃ r, regAt off = some r ∧ r.readOnly = true) ∨
        (off = 0x000#12 ∧ s.block.busy = true) ∨ (off = 0x000#12 ∧ s.block.err = true) ∨
        (s.block.busy = true ∧ ∃ r, regAt off = some r ∧ r.isInput = true) ∨
        (off = 0x014#12 ∧ v.toNat > 32) ∨ (off = 0x018#12 ∧ v.toNat > 1024) ∨
        (off = 0x01C#12 ∧ v.toNat > 256)) ∧
      step (s.withNext (.write off size v)) = .next (s.answered s.block (.accessFault off))) ∨
    (size = 4 ∧ off.toNat % 4 = 0 ∧
      (∃ r, regAt off = some r ∧ r.readOnly = false ∧
        (r = .cmd → s.block.busy = false ∧ s.block.err = false) ∧
        (r.isInput = true → s.block.busy = false) ∧
        (r = .msgLen → v.toNat ≤ 32) ∧ (r = .pwdLen → v.toNat ≤ 1024) ∧
        (r = .saltLen → v.toNat ≤ 256)) ∧
      ∃ b, step (s.withNext (.write off size v)) = .next (s.answered b .writeOk))) ∧
  (∀ (s : State) (off : Offset) (size : Nat),
    ((size ≠ 4 ∨ off.toNat % 4 ≠ 0 ∨ regAt off = none) ∧
      step (s.withNext (.read off size)) = .next (s.answered s.block (.accessFault off))) ∨
    (size = 4 ∧ off.toNat % 4 = 0 ∧ ∃ r, regAt off = some r ∧
      step (s.withNext (.read off size)) =
        .next (s.answered s.block (.readOk (s.block.regValue r)))))

/-! ### Writes -/

/-- R49: an accepted write to `MSG[j]` or `MSG_LEN` stores the value and, whatever it is, clears the digest,
the indices and the selected group with their flags, in the same step; nothing else changes, the
seed side least of all. -/
def Obligations.MessageWriteInvalidates : Prop :=
  ∀ (s : State) (v : Word), s.block.busy = false →
    (∀ j : Fin 8, step (s.withNext (.write (BitVec.ofNat 12 (0x040 + 4 * j.val)) 4 v)) =
      .next (s.answered
        { s.block with
          msg := s.block.msg.set j.val v
          dv := false, digest := Vector.replicate 8 0#32
          iv := false, idx := Vector.replicate 24 0#11, ngroups := 0#5
          gv := false, gsel := 0#11 } .writeOk)) ∧
    (v.toNat ≤ 32 → step (s.withNext (.write 0x014#12 4 v)) =
      .next (s.answered
        { s.block with
          msgLen := BitVec.ofNat 6 v.toNat
          dv := false, digest := Vector.replicate 8 0#32
          iv := false, idx := Vector.replicate 24 0#11, ngroups := 0#5
          gv := false, gsel := 0#11 } .writeOk))

/-- R50: an accepted write to `PWD[j]`, `PWD_LEN`, `SALT[j]` or `SALT_LEN` stores the value and clears the seed
with its flag in the same step; nothing else changes, the message side least of all. -/
def Obligations.SeedSideWriteInvalidates : Prop :=
  ∀ (s : State) (v : Word), s.block.busy = false →
    (∀ j : Fin 256, step (s.withNext (.write (BitVec.ofNat 12 (0x400 + 4 * j.val)) 4 v)) =
      .next (s.answered
        { s.block with
          pwd := s.block.pwd.set j.val v
          sv := false, seed := Vector.replicate 16 0#32 } .writeOk)) ∧
    (∀ j : Fin 64, step (s.withNext (.write (BitVec.ofNat 12 (0x200 + 4 * j.val)) 4 v)) =
      .next (s.answered
        { s.block with
          salt := s.block.salt.set j.val v
          sv := false, seed := Vector.replicate 16 0#32 } .writeOk)) ∧
    (v.toNat ≤ 1024 → step (s.withNext (.write 0x018#12 4 v)) =
      .next (s.answered
        { s.block with
          pwdLen := BitVec.ofNat 11 v.toNat
          sv := false, seed := Vector.replicate 16 0#32 } .writeOk)) ∧
    (v.toNat ≤ 256 → step (s.withNext (.write 0x01C#12 4 v)) =
      .next (s.answered
        { s.block with
          saltLen := BitVec.ofNat 9 v.toNat
          sv := false, seed := Vector.replicate 16 0#32 } .writeOk))

/-- R42, R46, R47: the host reads back the word it wrote to a buffer, and every other buffer word reads as
before. -/
def Obligations.BufferWordsReadBack : Prop :=
  ∀ (s : State) (off : Offset) (v : Word) (r : Reg), s.block.busy = false → regAt off = some r →
    ((∃ j, r = .msg j) ∨ (∃ j, r = .salt j) ∨ (∃ j, r = .pwd j)) →
    ∃ t, step (s.withNext (.write off 4 v)) = .next t ∧
      memRead t.block off 4 = .ok v ∧
      ∀ (off' : Offset) (r' : Reg), off' ≠ off → regAt off' = some r' → r'.isInput = true →
        memRead t.block off' 4 = memRead s.block off' 4

/-- R24: a write to `STATUS` clears `DONE` if bit 1 is set and `ERR`, `ERRCODE`, `ERRINFO` (R27) if bit 2
is; every other bit is ignored, nothing else changes, and it is accepted in every state. A read gives
`BUSY`, `DONE`, `ERR`, `DV`, `IV`, `GV`, `SV`, `ENT_OK` in bits 0 to 7 and 0 above, without side effect; after
reset all are 0. -/
def Obligations.StatusIsWriteOneToClear : Prop :=
  (∀ (s : State) (v : Word), step (s.withNext (.write 0x004#12 4 v)) =
    .next (s.answered
      { s.block with
        done := s.block.done && !v.getLsbD 1
        err := s.block.err && !v.getLsbD 2
        errcode := if v.getLsbD 2 then 0#8 else s.block.errcode
        errinfo := if v.getLsbD 2 then 0#32 else s.block.errinfo } .writeOk)) ∧
  (∀ s : State, ∃ w : Word,
    step (s.withNext (.read 0x004#12 4)) = .next (s.answered s.block (.readOk w)) ∧
    w.getLsbD 0 = s.block.busy ∧ w.getLsbD 1 = s.block.done ∧ w.getLsbD 2 = s.block.err ∧
    w.getLsbD 3 = s.block.dv ∧ w.getLsbD 4 = s.block.iv ∧ w.getLsbD 5 = s.block.gv ∧
    w.getLsbD 6 = s.block.sv ∧ w.getLsbD 7 = s.block.entOk ∧
    ∀ n, 8 ≤ n → w.getLsbD n = false) ∧
  State.reset.block.statusWord = 0#32

/-- R34: a write to `CTRL` stores bits 1:0 and ignores the rest, in every state, and changes nothing
else; the read gives the two enables back, zero-extended; `IE_DONE` lets `DONE` and `IE_ERR` lets `ERR` drive
`irq`; both are 0 after reset. -/
def Obligations.ControlRegisterStoresTwoBits : Prop :=
  (∀ (s : State) (v : Word), ∃ t,
    step (s.withNext (.write 0x008#12 4 v)) = .next t ∧
    t = s.answered { s.block with ieDone := v.getLsbD 0, ieErr := v.getLsbD 1 } .writeOk ∧
    step (t.withNext (.read 0x008#12 4)) =
      .next (t.answered t.block (.readOk (v &&& 0x00000003#32))) ∧
    t.block.irq = ((s.block.done && v.getLsbD 0) || (s.block.err && v.getLsbD 1))) ∧
  State.reset.block.ctrlWord = 0#32

/-- R217, R254: after the acknowledgement, a write of `STATUS` bit 2, no fault is pending, nothing else but
`DONE` (bit 1) has changed, and while `BUSY = 0` the next legal command word is accepted. -/
def Obligations.AcknowledgementReopensCommands : Prop :=
  ∀ (s : State) (v w : Word) (i : Instr), s.block.busy = false → v.getLsbD 2 = true →
    decode w = .ok i →
    ∃ t u, step (s.withNext (.write 0x004#12 4 v)) = .next t ∧
      t.block.err = false ∧ t.block.errcode = 0#8 ∧ t.block.errinfo = 0#32 ∧
      t.block = { s.block with done := t.block.done, err := false, errcode := 0#8, errinfo := 0#32 } ∧
      step (t.withNext (.write 0x000#12 4 w)) = .next u ∧
      u.block.busy = true ∧ u.block.cur = w

/-! ### Issue and acceptance -/

/-- R94, R96: a legal word written to `CMD` while `BUSY = 0` and `ERR = 0` is accepted: `CUR` holds it, `BUSY`
is set, `DONE` cleared, and exactly the results the command will produce are cleared. -/
def Obligations.LegalWordIsAccepted : Prop :=
  ∀ (s : State) (w : Word) (i : Instr), s.block.busy = false → s.block.err = false →
    decode w = .ok i →
    ∃ b, step (s.withNext (.write 0x000#12 4 w)) = .next (s.answered b .writeOk) ∧
      (i = .nop ∨ i = .clr → b = { s.block with cur := w, busy := true, done := false }) ∧
      (i = .hash ∨ i = .encode → b =
        { s.block with
          cur := w, busy := true, done := false
          dv := false, digest := Vector.replicate 8 0#32
          iv := false, idx := Vector.replicate 24 0#11, ngroups := 0#5
          gv := false, gsel := 0#11 }) ∧
      (i = .groups → b =
        { s.block with
          cur := w, busy := true, done := false
          iv := false, idx := Vector.replicate 24 0#11, ngroups := 0#5 }) ∧
      (∀ k, i = .group k → b =
        { s.block with cur := w, busy := true, done := false, gv := false, gsel := 0#11 }) ∧
      (i = .seed → b =
        { s.block with
          cur := w, busy := true, done := false
          sv := false, seed := Vector.replicate 16 0#32 })

/-- R95, R99: every other word written to `CMD` while `BUSY = 0` and `ERR = 0` sets `ERR`, `ERRCODE = 1` and
`ERRINFO` to the word; nothing else changes and the port answers OK. -/
def Obligations.IllegalWordIsReported : Prop :=
  ∀ (s : State) (w : Word), s.block.busy = false → s.block.err = false →
    (w.extractLsb' 16 16 ≠ 0#16 ∨ 0x07 ≤ (w.extractLsb' 0 8).toNat ∨
      (w.extractLsb' 0 8 ∈ [0x00#8, 0x01#8, 0x02#8, 0x04#8, 0x05#8, 0x06#8] ∧
        w.extractLsb' 8 8 ≠ 0#8)) →
    step (s.withNext (.write 0x000#12 4 w)) =
      .next (s.answered { s.block with err := true, errcode := 1#8, errinfo := w } .writeOk)

/-! ### The commands -/

/-- R200, R97: `NOP` completes in every state; `BUSY` and `DONE` change and nothing else. -/
def Obligations.NopCompletes : Prop :=
  ∀ s : State, exec .nop s = .next { s with block := { s.block with busy := false, done := true } }

/-- R140, R97, R43: `HASH` completes in every state; `DIGEST[j]` is `int(digest[4j .. 4j+4])` of the SHA-256
digest of the message, `DV` is set, and nothing else changes but `BUSY` and `DONE`. -/
def Obligations.HashCompletes : Prop :=
  ∀ s : State, ∃ d : Vector Word 8,
    exec .hash s = .next { s with
      block := { s.block with digest := d, dv := true, busy := false, done := true } } ∧
    (sha256 s.block.msgBytes).length = 32 ∧
    d.toList = (sha256State s.block.msgBytes).toList ∧
    ∀ j : Fin 8, d[j.val] =
      BitVec.ofNat 32 (intOf (((sha256 s.block.msgBytes).drop (4 * j.val)).take 4))

/-- R153, R97: `GROUPS` with `DV = 1` completes with every group of the concatenated buffer in `IDX`, zero
above, their number in `NGROUPS` and `IV` set; nothing else changes but `BUSY` and `DONE`. `BIT_READ` does
not arise. For `MSG_LEN` above 32, which no run reaches, the 24 stored groups and the five low bits of
the count are the model's choice (log 8); up to 32 `NGROUPS` is the count itself. -/
def Obligations.GroupsCompletes : Prop :=
  ∀ s : State, s.block.dv = true → ∃ x : Vector Index 24,
    exec .groups s = .next { s with
      block := { s.block with
        idx := x, ngroups := BitVec.ofNat 5 (8 * (s.block.msgLen.toNat + 1) / 11), iv := true
        busy := false, done := true } } ∧
    (s.block.msgLen.toNat ≤ 32 →
      (BitVec.ofNat 5 (8 * (s.block.msgLen.toNat + 1) / 11)).toNat =
        8 * (s.block.msgLen.toNat + 1) / 11) ∧
    ∀ g : Fin 24,
      (11 * g.val + 11 ≤ 8 * (s.block.msgLen.toNat + 1) →
        x[g.val] = BitVec.ofNat 11 (takeBits s.block.concatBuffer (11 * g.val) 11)) ∧
      (8 * (s.block.msgLen.toNat + 1) < 11 * g.val + 11 → x[g.val] = 0#11)

/-- R155, R154, R97: `GROUP k` with `DV = 1` and `11k + 11 <= 8 (MSG_LEN + 1)` completes with
`(int(CB) >> (bitlen(CB) - 11k - 11)) and 0x7FF` in `GSEL` and `GV` set; nothing else changes but `BUSY` and
`DONE`. -/
def Obligations.GroupCompletes : Prop :=
  ∀ (s : State) (k : Nat), s.block.dv = true → 11 * k + 11 ≤ 8 * (s.block.msgLen.toNat + 1) →
    ∃ v : Index,
      exec (.group k) s = .next { s with
        block := { s.block with gsel := v, gv := true, busy := false, done := true } } ∧
      v.toNat =
        (intOf s.block.concatBuffer >>> (8 * (s.block.msgLen.toNat + 1) - 11 * k - 11)) &&& 0x7FF

/-- R155, R214: `GROUP k` with `DV = 1` past the last group takes the command fault `BIT_READ` with `k` in
`ERRINFO`; nothing else changes but `BUSY` and `DONE`. -/
def Obligations.GroupPastTheEndFaults : Prop :=
  ∀ (s : State) (k : Nat), (Instr.group k).wf = true → s.block.dv = true →
    8 * (s.block.msgLen.toNat + 1) < 11 * k + 11 →
    exec (.group k) s = .next { s with
      block := { s.block with
        err := true, errcode := 3#8, errinfo := BitVec.setWidth 32 (BitVec.ofNat 8 k)
        busy := false, done := true } }

/-- R153, R155, R214, R216: `GROUPS` and `GROUP k`, for every `k`, with `DV = 0` take the command fault
`NO_DIGEST` with the command word in `ERRINFO`, also where `BIT_READ` would apply; nothing else changes
but `BUSY` and `DONE`. -/
def Obligations.MissingDigestFaultsFirst : Prop :=
  ∀ (s : State) (i : Instr), (i = .groups ∨ ∃ k, i = .group k) → s.block.dv = false →
    exec i s = .next { s with
      block := { s.block with
        err := true, errcode := 2#8, errinfo := s.block.cur, busy := false, done := true } }

/-- R159: with a valid digest, `GROUP k` puts into `GSEL` what `GROUPS` puts into `IDX[k]` for every
`k < n_groups`; for every `k >= n_groups` it faults and `GROUPS` leaves `IDX[k]` at 0 (for `k <= 23`). -/
def Obligations.GroupAgreesWithGroups : Prop :=
  ∀ s : State, s.block.dv = true → s.block.msgLen.toNat ≤ 32 →
    ∃ t, exec .groups s = .next t ∧
      ∀ k, k < 256 → ∃ u, exec (.group k) s = .next u ∧
        (k < groupCount s.block.msgLen.toNat →
          ∃ h : k < 24, u.block.gsel = t.block.idx[k] ∧ u.block.gv = true) ∧
        (groupCount s.block.msgLen.toNat ≤ k →
          u.block.err = true ∧ u.block.errcode = 3#8 ∧
          ∀ h : k < 24, t.block.idx[k] = 0#11)

/-- R157, R97: `ENCODE` completes in every state, without a fault: the digest of the message, every group
of the message followed by the first byte of that digest, both flags; nothing else changes but `BUSY`
and `DONE`. For `MSG_LEN` above 32, which no run reaches, the 24 stored groups and the five low bits of
the count are the model's choice (log 8); up to 32 `NGROUPS` is the count itself. -/
def Obligations.EncodeCompletes : Prop :=
  ∀ s : State, ∃ (d : Vector Word 8) (x : Vector Index 24),
    exec .encode s = .next { s with
      block := { s.block with
        digest := d, dv := true
        idx := x, ngroups := BitVec.ofNat 5 (8 * (s.block.msgLen.toNat + 1) / 11), iv := true
        busy := false, done := true } } ∧
    d.toList = words32 (sha256 s.block.msgBytes) ∧
    (s.block.msgLen.toNat ≤ 32 →
      (BitVec.ofNat 5 (8 * (s.block.msgLen.toNat + 1) / 11)).toNat =
        8 * (s.block.msgLen.toNat + 1) / 11) ∧
    ∀ g : Fin 24,
      (11 * g.val + 11 ≤ 8 * (s.block.msgLen.toNat + 1) →
        groupOf (s.block.msgBytes ++ (sha256 s.block.msgBytes).take 1) g.val = .ok x[g.val]) ∧
      (8 * (s.block.msgLen.toNat + 1) < 11 * g.val + 11 → x[g.val] = 0#11)

/-- R157: the end state of `ENCODE` issued by the host equals that of `HASH` followed, after its completion,
by `GROUPS`, except for `CUR` (0x00000004 instead of 0x00000002). The last completions happen because
nothing is pending any more (log 1). -/
def Obligations.EncodeIsHashThenGroups : Prop :=
  ∀ s : State, s.block.busy = false → s.block.err = false →
    ∃ t u,
      runSteps 2 { s with pending := [.write 0x000#12 4 0x00000004#32] } = .next t ∧
      runSteps 4 { s with pending :=
        [.write 0x000#12 4 0x00000001#32, .engine, .write 0x000#12 4 0x00000002#32] } = .next u ∧
      t.block = { u.block with cur := 0x00000004#32 } ∧ u.block.cur = 0x00000002#32 ∧
      t.pending = [] ∧ u.pending = []

/-- R191, R90, R45, R97: `SEED` completes in every state; `SEED[0..15]` holds the 64 bytes of
PBKDF2-HMAC-SHA-512 of the password and "mnemonic" followed by the passphrase, 2048 iterations, as
big-endian words, `SV` is set, and nothing else changes but `BUSY` and `DONE`. -/
def Obligations.SeedCompletes : Prop :=
  ∀ s : State, ∃ d : Vector Word 16,
    exec .seed s = .next { s with
      block := { s.block with seed := d, sv := true, busy := false, done := true } } ∧
    (kdf s.block.pwdBytes s.block.passBytes).length = 64 ∧
    d.toList = words32 (pbkdf2 hmac512 64 s.block.pwdBytes
      ([0x6D#8, 0x6E#8, 0x65#8, 0x6D#8, 0x6F#8, 0x6E#8, 0x69#8, 0x63#8] ++ s.block.passBytes) 2048 64) ∧
    ∀ i : Fin 8, ∃ w : Word64,
      (words64 (kdf s.block.pwdBytes s.block.passBytes))[i.val]? = some w ∧
      d[2 * i.val] = w.extractLsb' 32 32 ∧ d[2 * i.val + 1] = w.extractLsb' 0 32

/-- R201, R58, R97: `CLR` completes in every state; every buffer, length, result and valid flag is as after
reset; `CTRL`, `CUR`, `ERR`, `ERRCODE` and `ERRINFO` stay; `BUSY` is 0 and `DONE` 1. -/
def Obligations.ClrCompletes : Prop :=
  ∀ s : State, exec .clr s = .next { s with
    block := { Block.reset with
      ieDone := s.block.ieDone, ieErr := s.block.ieErr, cur := s.block.cur
      err := s.block.err, errcode := s.block.errcode, errinfo := s.block.errinfo
      busy := false, done := true } }

/-- R97, R213, R214: every completion, of any command in any state, answers a next state with `BUSY = 0`,
`DONE = 1`, the same `CUR`, `CTRL`, pending events and answers; if it raised a fault, the command is
`GROUPS` or `GROUP k`, the code 2 or 3, and the state is the one before plus exactly the fault's writes. -/
def Obligations.CompletionIsPrecise : Prop :=
  ∀ (i : Instr) (s : State), i.wf = true → ∃ t, exec i s = .next t ∧
    t.pending = s.pending ∧ t.responses = s.responses ∧
    t.block.busy = false ∧ t.block.done = true ∧ t.block.cur = s.block.cur ∧
    t.block.ieDone = s.block.ieDone ∧ t.block.ieErr = s.block.ieErr ∧
    (s.block.err = false → t.block.err = true →
      (i = .groups ∨ ∃ k, i = .group k) ∧
      (t.block.errcode = 2#8 ∨ t.block.errcode = 3#8) ∧
      t.block = { s.block with
        err := true, errcode := t.block.errcode, errinfo := t.block.errinfo
        busy := false, done := true })

/-- R42, R46, R47, R256: two machines that differ only in buffer bytes at or beyond the lengths give the same
results for every command: afterwards too they differ in nothing else. -/
def Obligations.LeftoverBytesAreIgnored : Prop :=
  ∀ (i : Instr) (s t : State), s.block.agreeBelowLengths t.block →
    ∃ s' t', exec i s = .next s' ∧ exec i t = .next t' ∧ s'.block.agreeBelowLengths t'.block

/-- R170, R255: the two sides of the block do not disturb each other. `HASH`, `GROUPS`, `GROUP k` and `ENCODE`
change no register of the seed side, `SEED` none of the message side, and the results each writes depend
on no register of the other side. -/
def Obligations.SidesAreIndependent : Prop :=
  (∀ (i : Instr) (s t : State), i ∈ [Instr.hash, .groups, .encode] ∨ (∃ k, i = .group k) →
    ∃ s' t', exec i s = .next s' ∧ exec i t = .next t' ∧
      s'.block.sameSeedSide s.block ∧
      (s.block.sameMessageSide t.block → s'.block.sameMessageSide t'.block)) ∧
  (∀ s t : State, ∃ s' t', exec .seed s = .next s' ∧ exec .seed t = .next t' ∧
      s'.block.sameMessageSide s.block ∧
      (s.block.sameSeedSide t.block → s'.block.sameSeedSide t'.block))

/-! ### What the pure functions compute -/

/-- R131: one block suffices. For every message of at most 55 bytes the padded message has 64 bytes and
the digest is one compression; in terms of the registers, the block's words are the `MSG` words below
the length, the byte 0x80, zeros and the length in bits, for every length from 0 to 32. -/
def Obligations.OneBlockSuffices : Prop :=
  (∀ m : List Byte, m.length ≤ 55 →
    (pad256 m).length = 64 ∧
    pad256 m = m ++ [0x80#8] ++ zeros (55 - m.length) ++ beBytes 8 (8 * m.length) ∧
    sha256State m = compress256 iv256 (words32 (pad256 m))) ∧
  (∀ (b : Block) (q : Nat) (t : Fin 16), b.msgLen.toNat ≤ 32 → q = b.msgLen.toNat / 4 →
    (words32 (pad256 b.msgBytes)).length = 16 ∧
    (t.val < q → (words32 (pad256 b.msgBytes))[t.val]? = b.msg.toList[t.val]?) ∧
    (b.msgLen.toNat % 4 = 0 → t.val = q →
      (words32 (pad256 b.msgBytes))[t.val]? = some 0x80000000#32) ∧
    (b.msgLen.toNat % 4 = 1 → t.val = q → (words32 (pad256 b.msgBytes))[t.val]? =
      some (((b.msg.toList.getD q 0#32) &&& 0xFF000000#32) ||| 0x00800000#32)) ∧
    (b.msgLen.toNat % 4 = 2 → t.val = q → (words32 (pad256 b.msgBytes))[t.val]? =
      some (((b.msg.toList.getD q 0#32) &&& 0xFFFF0000#32) ||| 0x00008000#32)) ∧
    (b.msgLen.toNat % 4 = 3 → t.val = q → (words32 (pad256 b.msgBytes))[t.val]? =
      some (((b.msg.toList.getD q 0#32) &&& 0xFFFFFF00#32) ||| 0x00000080#32)) ∧
    (q < t.val → t.val ≤ 14 → (words32 (pad256 b.msgBytes))[t.val]? = some 0#32) ∧
    (t.val = 15 → (words32 (pad256 b.msgBytes))[t.val]? =
      some (BitVec.ofNat 32 (8 * b.msgLen.toNat))))

/-- R127, R177: the message schedules of SHA-256 (64 words) and SHA-512 (80 words). -/
def Obligations.ScheduleRecurrence : Prop :=
  (∀ m : List Word, m.length = 16 →
    (schedule sha256Params m).length = 64 ∧
    (∀ t, t < 16 → (schedule sha256Params m)[t]? = m[t]?) ∧
    (∀ t, 16 ≤ t → t < 64 →
      (schedule sha256Params m).getD t 0 =
        ssig1w32 ((schedule sha256Params m).getD (t - 2) 0) +
          (schedule sha256Params m).getD (t - 7) 0 +
          ssig0w32 ((schedule sha256Params m).getD (t - 15) 0) +
          (schedule sha256Params m).getD (t - 16) 0)) ∧
  (∀ m : List Word64, m.length = 16 →
    (schedule sha512Params m).length = 80 ∧
    (∀ t, t < 16 → (schedule sha512Params m)[t]? = m[t]?) ∧
    (∀ t, 16 ≤ t → t < 80 →
      (schedule sha512Params m).getD t 0 =
        ssig1w64 ((schedule sha512Params m).getD (t - 2) 0) +
          (schedule sha512Params m).getD (t - 7) 0 +
          ssig0w64 ((schedule sha512Params m).getD (t - 15) 0) +
          (schedule sha512Params m).getD (t - 16) 0))

/-- R125, R175: the padded length is a multiple of the block size for both hashes, with fewer zero bytes
than a block, and the last bytes hold the message length in bits. -/
def Obligations.PaddingFillsWholeBlocks : Prop :=
  ∀ m : List Byte,
    (∃ z : Nat, z < 64 ∧ (55 - (m.length : Int)) % 64 = (z : Int) ∧
      pad256 m = m ++ [0x80#8] ++ zeros z ++ beBytes 8 (8 * m.length) ∧
      (pad256 m).length % 64 = 0) ∧
    (∃ z : Nat, z < 128 ∧ (111 - (m.length : Int)) % 128 = (z : Int) ∧
      pad512 m = m ++ [0x80#8] ++ zeros z ++ beBytes 16 (8 * m.length) ∧
      (pad512 m).length % 128 = 0)

/-- R154: a group as stream bits and as a field of the integer the buffer holds, the condition under
which the bit cursor cannot supply it, and the same condition as a group count. -/
def Obligations.GroupIsAFieldOfTheBuffer : Prop :=
  ∀ (cb : List Byte) (g : Nat),
    (11 * g + 11 ≤ bitlen cb → ∃ v : Index, groupOf cb g = .ok v ∧
      v.toNat = takeBits cb (11 * g) 11 ∧
      v.toNat = (intOf cb >>> (bitlen cb - 11 * g - 11)) &&& 0x7FF) ∧
    (bitlen cb < 11 * g + 11 → groupOf cb g = .error g) ∧
    (∀ len, cb.length = len + 1 → (11 * g + 11 ≤ bitlen cb ↔ g < groupCount len))

/-- R160: no result depends on the trailing bits: two digest bytes that differ only in bits the groups do
not consume give the same groups. -/
def Obligations.TrailingBitsAreNeverRead : Prop :=
  ∀ (msg : List Byte) (d0 d1 : Byte),
    d0 >>> (8 - checksumBitsConsumed msg.length) = d1 >>> (8 - checksumBitsConsumed msg.length) →
    ∀ g, g < groupCount msg.length → groupOf (msg ++ [d0]) g = groupOf (msg ++ [d1]) g

/-- R158: for `g < n_groups` the group is the fixed window `V264[263 - 11g : 253 - 11g]` of the vector of the
message, `d0` and anything beyond. -/
def Obligations.MultiplexerAsWiring : Prop :=
  ∀ (msg fill : List Byte) (d0 : Byte) (g : Nat), msg.length + 1 + fill.length = 33 →
    g < groupCount msg.length →
    groupOf (msg ++ [d0]) g = .ok (wiredWindow (wiredVector msg d0 fill) g)

/-- R156: the table of group counts, consumed checksum bits and discarded bits for every length 0 to 32. -/
def Obligations.GroupCountTable : Prop :=
  (List.range 33).map (fun l => (groupCount l, checksumBitsConsumed l)) =
    [(0, 0), (1, 3), (2, 6), (2, 0), (3, 1), (4, 4), (5, 7), (5, 0), (6, 2), (7, 5), (8, 8), (8, 0),
     (9, 3), (10, 6), (10, 0), (11, 1), (12, 4), (13, 7), (13, 0), (14, 2), (15, 5), (16, 8), (16, 0),
     (17, 3), (18, 6), (18, 0), (19, 1), (20, 4), (21, 7), (21, 0), (22, 2), (23, 5), (24, 8)] ∧
  ∀ l : Fin 33, bitlen (zeros (l.val + 1)) = 11 * groupCount l.val + trailingBits l.val ∧
    trailingBits l.val ≤ 10

/-- R182: starting every inner and outer hash from the two precomputed chaining values gives the same
`HMAC512` and the same key derivation byte for byte. -/
def Obligations.PrecomputedPadsAgree : Prop :=
  (∀ key text : List Byte,
    hmac512Shortcut (padState key ipad) (padState key opad) text = hmac512 key text) ∧
  (∀ pwd pass : List Byte, kdfShortcut pwd pass = kdf pwd pass)

/-- R185, R186, R189: the block's key derivation is the instance of PBKDF2 with `PRF = HMAC512`, `hLen = 64`,
`c = 2048`, `dkLen = 64`: one block, nothing truncated. -/
def Obligations.KdfIsOneBlockOfPbkdf2 : Prop :=
  ∀ pwd pass : List Byte,
    kdf pwd pass = pbkdf2 hmac512 64 pwd (kdfSalt pass) 2048 64 ∧ (kdf pwd pass).length = 64

/-! ### Reset, interrupt and whole-machine rules -/

/-- R240, R54: reset at any point gives every element its reset value and so abandons a command in
execution; every register reads 0, every flag and `irq` are 0, and the next legal command is accepted. The
events to come and the past answers stay (log 1, log 2). -/
def Obligations.ResetFromAnyState : Prop :=
  ∀ s : State, step (s.withNext .reset) = .next { s with block := State.reset.block } ∧
    (∀ r : Reg, State.reset.block.regValue r = 0#32) ∧ State.reset.block.irq = false ∧
    State.reset.block.statusWord = 0#32 ∧
    ∀ (w : Word) (i : Instr), decode w = .ok i →
      ∃ b, step ({ s with block := State.reset.block }.withNext (.write 0x000#12 4 w)) =
          .next ({ s with block := State.reset.block }.answered b .writeOk) ∧
        b.busy = true ∧ b.cur = w

/-- R53, R26, R213, R218: `irq` is 1 exactly when an enabled flag is, and a completion that takes a command
fault, `NO_DIGEST` or `BIT_READ`, sets both `DONE` and `ERR`, so that either enable raises the line in that
step. -/
def Obligations.InterruptLine : Prop :=
  (∀ b : Block, b.irq = true ↔
    ((b.done = true ∧ b.ieDone = true) ∨ (b.err = true ∧ b.ieErr = true))) ∧
  (∀ (i : Instr) (s : State), ∃ t, exec i s = .next t ∧
    (s.block.ieDone = true → t.block.irq = true) ∧
    (((s.block.dv = false ∧ (i = .groups ∨ ∃ k, i = .group k)) ∨
        (s.block.dv = true ∧
          ∃ k, i = .group k ∧ 8 * (s.block.msgLen.toNat + 1) < 11 * k + 11)) →
      t.block.done = true ∧ t.block.err = true ∧
        t.block.irq = (s.block.ieDone || s.block.ieErr)))

/-- R51: the state after reset satisfies every invariant. -/
def Obligations.InvariantsHoldAtReset : Prop := State.reset.Inv

/-- R51, with R28 to R31, R75 and R97: every step from a state that satisfies the invariants gives a state
that satisfies them, whatever the pending events are. -/
def Obligations.EveryStepKeepsTheInvariants : Prop :=
  ∀ s t : State, s.Inv → step s = .next t → t.Inv

/-- R97, R258: a state that satisfies the invariants never stops: its step answers a next state. -/
def Obligations.InvariantStatesNeverStop : Prop :=
  ∀ s : State, s.Inv → ∃ t, step s = .next t

/-- R97, R51 (e): no command and no access stops the machine. A step stops only where the engine finds a
word in `CUR` that is no legal command while `BUSY = 1` (log 5), and it never refuses. -/
def Obligations.TheOnlyStopIsAnIllegalLatch : Prop :=
  ∀ s : State, (∀ r, step s ≠ .refused r) ∧
    ∀ f, step s = .fault f →
      f = .curNotLegal s.block.cur ∧ s.block.busy = true ∧ legalWord s.block.cur = false ∧
      (s.pending = [] ∨ ∃ rest, s.pending = .engine :: rest)

/-- R258, R260: progress. From every state that satisfies the invariants, with any events pending, the run
is over (nothing pending, `BUSY = 0`) after one step more than there are events: a command still in
execution then is completed. That the engine moves when nothing is pending is log 1; that a run is over only
when no event of any kind is pending is log 19. -/
def Obligations.EveryRunEnds : Prop :=
  ∀ s : State, s.Inv → ∃ t, runSteps (s.pending.length + 1) s = .next t ∧ t.runOver ∧ t.Inv

/-- R21, R25: `BUSY` goes from 0 to 1, and `CUR` changes, only by an accepted write of a legal word to `CMD`
(`CUR` also by reset); `BUSY` goes from 1 to 0 only by a completion, which sets `DONE`, or by reset. -/
def Obligations.BusyAndCurChangeOnlyByRule : Prop :=
  ∀ s t : State, step s = .next t →
    ((s.block.busy = false ∧ t.block.busy = true) ∨ (t.block.cur ≠ s.block.cur) →
      (∃ w rest i, s.pending = .write 0x000#12 4 w :: rest ∧ decode w = .ok i ∧
        s.block.busy = false ∧ s.block.err = false ∧ t.block.cur = w ∧ t.block.busy = true) ∨
      (∃ rest, s.pending = .reset :: rest ∧ t.block.busy = false ∧ t.block.cur = 0#32)) ∧
    (s.block.busy = true → t.block.busy = false →
      (∃ i, decode s.block.cur = .ok i ∧ t.block.done = true ∧ t.block.cur = s.block.cur ∧
        (s.pending = [] ∨ ∃ rest, s.pending = .engine :: rest)) ∨
      ∃ rest, s.pending = .reset :: rest)

/-- R27, R35, R36: a pending command fault is never overwritten and goes only by the acknowledgement or
reset. From a state with `ERR = 1` and `BUSY = 0`, any step keeps `ERR`, `ERRCODE`, `ERRINFO` and `BUSY = 0`,
unless it is a 4-byte write to `STATUS` with bit 2 set, or a reset, which clear all three. -/
def Obligations.FirstFaultIsKept : Prop :=
  ∀ s t : State, step s = .next t → s.block.err = true → s.block.busy = false →
    (t.block.err = true ∧ t.block.errcode = s.block.errcode ∧
      t.block.errinfo = s.block.errinfo ∧ t.block.busy = false) ∨
    (((∃ v rest, s.pending = .write 0x004#12 4 v :: rest ∧ v.getLsbD 2 = true) ∨
        (∃ rest, s.pending = .reset :: rest)) ∧
      t.block.err = false ∧ t.block.errcode = 0#8 ∧ t.block.errinfo = 0#32)

/-- R257, R25: an input buffer or length changes only by an accepted write to it while `BUSY = 0`, by the
completion of `CLR`, or by reset: nothing else a step does touches the host's inputs. -/
def Obligations.InputsStayUntilOverwritten : Prop :=
  ∀ s t : State, step s = .next t →
    (t.block.msg = s.block.msg ∧ t.block.msgLen = s.block.msgLen ∧ t.block.pwd = s.block.pwd ∧
      t.block.pwdLen = s.block.pwdLen ∧ t.block.salt = s.block.salt ∧
      t.block.saltLen = s.block.saltLen) ∨
    (∃ off v rest r, s.pending = .write off 4 v :: rest ∧ regAt off = some r ∧ r.isInput = true ∧
      s.block.busy = false) ∨
    (s.block.busy = true ∧ decode s.block.cur = .ok .clr ∧ t.block.done = true) ∨
    (∃ rest, s.pending = .reset :: rest)

/-- R101, R48: the line `ldmsg` loads its byte string. From a state with `BUSY = 0`, after the accesses the
line stands for, the message of the block is the string, for every string of at most 32 bytes, and each of
the accesses is answered OK. -/
def Obligations.LoadMessageLineLoads : Prop :=
  ∀ (s : State) (m : List Byte), s.block.busy = false → m.length ≤ 32 →
    ∃ t, runSteps (HostLine.ldmsg m).events.length
        { s with pending := (HostLine.ldmsg m).events ++ s.pending } = .next t ∧
      t.block.msgBytes = m ∧ t.pending = s.pending ∧ t.block.sameSeedSide s.block ∧
      t.responses =
        List.replicate (HostLine.ldmsg m).events.length .writeOk ++ s.responses
end

