-- ==== Sys2Proof/Laws/Bytes.lean ====
section
/-! SUPPORT. Laws of byte strings, their integers, bit streams and words (spec/00_scope.md R8 to R11,
spec/10_state.md R48). -/

namespace Sys2Proof.Machine

@[simp] theorem zeros_length (n : Nat) : (zeros n).length = n := by simp [zeros]

@[simp] theorem xorBytes_length (a b : List Byte) :
    (xorBytes a b).length = min a.length b.length := by simp [xorBytes]

@[simp] theorem beBytes_length (n v : Nat) : (beBytes n v).length = n := by simp [beBytes]

@[simp] theorem bufferBytes_length (ws : List Word) (n : Nat) : (bufferBytes ws n).length = n := by
  simp [bufferBytes]

@[simp] theorem Block.msgBytes_length (b : Block) : b.msgBytes.length = b.msgLen.toNat := by
  simp [Block.msgBytes]

@[simp] theorem Block.pwdBytes_length (b : Block) : b.pwdBytes.length = b.pwdLen.toNat := by
  simp [Block.pwdBytes]

@[simp] theorem Block.passBytes_length (b : Block) : b.passBytes.length = b.saltLen.toNat := by
  simp [Block.passBytes]

@[simp] theorem Block.concatBuffer_length (b : Block) :
    b.concatBuffer.length = b.msgLen.toNat + 1 := by simp [Block.concatBuffer]

/-- R151: `bitlen(CB) = 8 * (MSG_LEN + 1)`. -/
@[simp] theorem Block.bitlen_concatBuffer (b : Block) :
    bitlen b.concatBuffer = 8 * (b.msgLen.toNat + 1) := by simp [bitlen]

@[simp] theorem fillVector_getElem {α : Type} (n : Nat) (d : α) (l : List α) (i : Nat) (h : i < n) :
    (fillVector n d l)[i] = l.getD i d := by
  simp [fillVector]

theorem fillVector_toList {α : Type} (n : Nat) (d : α) (l : List α) (h : l.length = n) :
    (fillVector n d l).toList = l := by
  apply List.ext_getElem
  · simp [h]
  · intro i h1 h2
    simp [fillVector, Vector.toList, List.getElem?_eq_getElem h2]

/-! ### The integer of a byte string -/

theorem intOf_foldl (s : List Byte) (acc : Nat) :
    s.foldl (fun a x => 256 * a + x.toNat) acc = acc * 256 ^ s.length + intOf s := by
  induction s generalizing acc with
  | nil => simp [intOf]
  | cons x s ih =>
    simp only [intOf, List.foldl_cons, List.length_cons] at *
    rw [ih, ih (256 * 0 + x.toNat), pow_succ]
    ring

@[simp] theorem intOf_nil : intOf [] = 0 := rfl

theorem intOf_append (a b : List Byte) : intOf (a ++ b) = intOf a * 256 ^ b.length + intOf b := by
  rw [intOf, List.foldl_append, intOf_foldl]; rfl

theorem intOf_cons (x : Byte) (s : List Byte) :
    intOf (x :: s) = x.toNat * 256 ^ s.length + intOf s := by
  have := intOf_append [x] s
  simpa [intOf] using this

theorem intOf_lt (s : List Byte) : intOf s < 256 ^ s.length := by
  induction s with
  | nil => simp
  | cons x s ih =>
    rw [intOf_cons, List.length_cons, pow_succ]
    have hx : x.toNat ≤ 255 := by omega
    nlinarith [Nat.mul_le_mul_right (256 ^ s.length) hx]

theorem beBytes_succ (n v : Nat) : beBytes (n + 1) v = beBytes n (v / 256) ++ [BitVec.ofNat 8 v] := by
  simp only [beBytes, List.range_succ, List.map_append, List.map_cons, List.map_nil]
  congr 1
  · apply List.map_congr_left
    intro i hi
    have hi : i < n := List.mem_range.mp hi
    have e : 8 * (n + 1 - 1 - i) = 8 + 8 * (n - 1 - i) := by omega
    rw [e, Nat.shiftRight_add, Nat.shiftRight_eq_div_pow v 8]
  · simp
    apply BitVec.eq_of_toNat_eq
    have h := Nat.and_two_pow_sub_one_eq_mod (v % 256) 8
    norm_num at h
    simp [h]

/-- R9: `be` and `int` are inverse up to the width. -/
theorem intOf_beBytes (n v : Nat) : intOf (beBytes n v) = v % 256 ^ n := by
  induction n generalizing v with
  | zero => simp [beBytes, Nat.mod_one]
  | succ n ih =>
    rw [beBytes_succ, intOf_append, ih]
    simp [intOf, pow_succ]
    rw [Nat.mul_comm (256 ^ n) 256, Nat.mod_mul]
    ring

/-! ### The bit stream -/

theorem streamBit_le (s : List Byte) (b : Nat) : streamBit s b ≤ 1 := by
  unfold streamBit; exact Nat.and_le_right

theorem takeBits_lt (s : List Byte) (b n : Nat) : takeBits s b n < 2 ^ n := by
  induction n with
  | zero => simp [takeBits]
  | succ n ih =>
    have := streamBit_le s (b + n)
    simp only [takeBits, pow_succ]; omega

theorem bitlen_append (a b : List Byte) : bitlen (a ++ b) = bitlen a + bitlen b := by
  simp [bitlen]; ring

/-- R10: bit `b` of the stream is bit `bitlen(s) - 1 - b` of `int(s)`. -/
theorem streamBit_eq (s : List Byte) (b : Nat) (h : b < bitlen s) :
    streamBit s b = intOf s / 2 ^ (bitlen s - 1 - b) % 2 := by
  induction s generalizing b with
  | nil => simp [bitlen] at h
  | cons x s ih =>
    have hl : bitlen (x :: s) = 8 + bitlen s := by simp [bitlen]; ring
    have hp : 256 ^ s.length = 2 ^ bitlen s := by
      rw [bitlen, show (256 : Nat) = 2 ^ 8 from rfl, ← pow_mul]
    have hlt := intOf_lt s
    rw [hp] at hlt
    rw [intOf_cons, hp, hl]
    by_cases hb : b < 8
    · have e : 8 + bitlen s - 1 - b = bitlen s + (7 - b) := by omega
      rw [e, pow_add, ← Nat.div_div_eq_div_mul, Nat.add_comm (x.toNat * _),
        Nat.add_mul_div_right _ _ (by positivity), Nat.div_eq_of_lt hlt, Nat.zero_add]
      have h0 : b / 8 = 0 := by omega
      have h1 : b % 8 = b := by omega
      simp [streamBit, h0, h1, Nat.shiftRight_eq_div_pow, Nat.and_one_is_mod]
    · have hb' : b - 8 < bitlen s := by omega
      have hs : streamBit (x :: s) b = streamBit s (b - 8) := by
        have h0 : b / 8 = (b - 8) / 8 + 1 := by omega
        have h1 : b % 8 = (b - 8) % 8 := by omega
        simp [streamBit, h0, h1]
      rw [hs, ih _ hb']
      have e1 : 8 + bitlen s - 1 - b = bitlen s - 1 - (b - 8) := by omega
      rw [e1]
      have e2 : bitlen s = (bitlen s - 1 - (b - 8)) + ((b - 8) + 1) := by omega
      generalize bitlen s - 1 - (b - 8) = k at *
      have e3 : x.toNat * 2 ^ bitlen s = 2 ^ k * (2 * (x.toNat * 2 ^ (b - 8))) := by
        rw [e2, pow_add, pow_succ]; ring
      rw [e3, Nat.add_comm, Nat.add_mul_div_left _ _ (by positivity), Nat.add_mul_mod_self_left]

/-- R10: `take(s, b, n)` as a field of `int(s)`. -/
theorem takeBits_eq (s : List Byte) (b n : Nat) (h : b + n ≤ bitlen s) :
    takeBits s b n = intOf s / 2 ^ (bitlen s - b - n) % 2 ^ n := by
  induction n with
  | zero => simp [takeBits, Nat.mod_one]
  | succ n ih =>
    rw [takeBits, ih (by omega), streamBit_eq _ _ (by omega)]
    have e1 : bitlen s - b - n = (bitlen s - b - (n + 1)) + 1 := by omega
    have e2 : bitlen s - 1 - (b + n) = bitlen s - b - (n + 1) := by omega
    rw [e1, e2, pow_succ, ← Nat.div_div_eq_div_mul]
    generalize intOf s / 2 ^ (bitlen s - b - (n + 1)) = q
    rw [pow_succ, Nat.mul_comm (2 ^ n) 2, Nat.mod_mul]
    omega

/-! ### Words -/

theorem words32_cons4 (a b c d : Byte) (rest : List Byte) :
    words32 (a :: b :: c :: d :: rest) = BitVec.ofNat 32 (intOf [a, b, c, d]) :: words32 rest := rfl

theorem words64_cons8 (a b c d e f g h : Byte) (rest : List Byte) :
    words64 (a :: b :: c :: d :: e :: f :: g :: h :: rest) =
      BitVec.ofNat 64 (intOf [a, b, c, d, e, f, g, h]) :: words64 rest := rfl

/-- A byte string of at least four bytes begins with one 32-bit word (R48). -/
theorem words32_append4 (p rest : List Byte) (h : p.length = 4) :
    words32 (p ++ rest) = BitVec.ofNat 32 (intOf p) :: words32 rest := by
  match p, h with
  | [a, b, c, d], _ => rfl

/-- A byte string of at least eight bytes begins with one 64-bit word (R176). -/
theorem words64_append8 (p rest : List Byte) (h : p.length = 8) :
    words64 (p ++ rest) = BitVec.ofNat 64 (intOf p) :: words64 rest := by
  match p, h with
  | [a, b, c, d, e, f, g, h'], _ => rfl

/-- R48: words and bytes are inverse to each other, 32-bit words. -/
theorem words32_bytesOfWords (ws : List Word) : words32 (bytesOfWords ws) = ws := by
  induction ws with
  | nil => rfl
  | cons w ws ih =>
    rw [bytesOfWords, List.flatMap_cons, words32_append4 _ _ (by simp)]
    rw [bytesOfWords] at ih
    rw [ih, intOf_beBytes]
    congr 1
    apply BitVec.eq_of_toNat_eq
    have := w.isLt
    simp only [BitVec.toNat_ofNat, Nat.reducePow, Nat.reduceDiv] at this ⊢
    omega

/-- R176: words and bytes are inverse to each other, 64-bit words. -/
theorem words64_bytesOfWords (ws : List Word64) : words64 (bytesOfWords ws) = ws := by
  induction ws with
  | nil => rfl
  | cons w ws ih =>
    rw [bytesOfWords, List.flatMap_cons, words64_append8 _ _ (by simp)]
    rw [bytesOfWords] at ih
    rw [ih, intOf_beBytes]
    congr 1
    apply BitVec.eq_of_toNat_eq
    have := w.isLt
    simp only [BitVec.toNat_ofNat, Nat.reducePow, Nat.reduceDiv] at this ⊢
    omega

theorem bytesOfWords_length {w : Nat} (ws : List (BitVec w)) :
    (bytesOfWords ws).length = (w / 8) * ws.length := by
  induction ws with
  | nil => simp [bytesOfWords]
  | cons x ws ih =>
    rw [bytesOfWords] at ih ⊢
    rw [List.flatMap_cons, List.length_append, ih]
    simp; ring

/-- Cutting a byte string at a multiple of 4 cuts its words (R48). -/
theorem words32_append (p rest : List Byte) (k : Nat) (h : p.length = 4 * k) :
    words32 (p ++ rest) = words32 p ++ words32 rest := by
  induction k generalizing p with
  | zero =>
    have : p = [] := List.length_eq_zero_iff.mp (by omega)
    simp [this, words32]
  | succ k ih =>
    have h1 : (p.take 4).length = 4 := by simp; omega
    have h2 : (p.drop 4).length = 4 * k := by simp; omega
    have e1 := words32_append4 (p.take 4) (p.drop 4 ++ rest) h1
    have e2 := words32_append4 (p.take 4) (p.drop 4) h1
    rw [← List.append_assoc, List.take_append_drop, ih _ h2] at e1
    rw [List.take_append_drop] at e2
    rw [e1, e2]
    rfl

/-- Cutting a byte string at a multiple of 8 cuts its 64-bit words (R176). -/
theorem words64_append (p rest : List Byte) (k : Nat) (h : p.length = 8 * k) :
    words64 (p ++ rest) = words64 p ++ words64 rest := by
  induction k generalizing p with
  | zero =>
    have : p = [] := List.length_eq_zero_iff.mp (by omega)
    simp [this, words64]
  | succ k ih =>
    have h1 : (p.take 8).length = 8 := by simp; omega
    have h2 : (p.drop 8).length = 8 * k := by simp; omega
    have e1 := words64_append8 (p.take 8) (p.drop 8 ++ rest) h1
    have e2 := words64_append8 (p.take 8) (p.drop 8) h1
    rw [← List.append_assoc, List.take_append_drop, ih _ h2] at e1
    rw [List.take_append_drop] at e2
    rw [e1, e2]
    rfl

theorem words32_length (s : List Byte) : (words32 s).length = s.length / 4 := by
  induction h : s.length / 4 generalizing s with
  | zero =>
    match s, h with
    | [], _ | [_], _ | [_, _], _ | [_, _, _], _ => rfl
    | _ :: _ :: _ :: _ :: r, h => simp at h; omega
  | succ k ih =>
    match s, h with
    | [], h | [_], h | [_, _], h | [_, _, _], h => simp at h
    | a :: b :: c :: d :: r, h =>
      rw [words32_cons4, List.length_cons, ih r (by simp at h; omega)]

theorem words64_length (s : List Byte) : (words64 s).length = s.length / 8 := by
  induction h : s.length / 8 generalizing s with
  | zero =>
    rcases s with _ | ⟨a, _ | ⟨b, _ | ⟨c, _ | ⟨d, _ | ⟨e, _ | ⟨f, _ | ⟨g, _ | ⟨i, r⟩⟩⟩⟩⟩⟩⟩⟩ <;>
      first
        | rfl
        | (simp at h; omega)
  | succ k ih =>
    have h8 : 8 ≤ s.length := by omega
    rw [← List.take_append_drop 8 s, words64_append8 _ _ (by simp; omega), List.length_cons,
      ih (s.drop 8) (by simp; omega)]

/-- The word number `j` is the integer of its four bytes (R48). -/
theorem words32_getElem? (s : List Byte) (j : Nat) (h : 4 * j + 4 ≤ s.length) :
    (words32 s)[j]? = some (BitVec.ofNat 32 (intOf ((s.drop (4 * j)).take 4))) := by
  have e : s = s.take (4 * j) ++ ((s.drop (4 * j)).take 4 ++ (s.drop (4 * j)).drop 4) := by
    rw [List.take_append_drop, List.take_append_drop]
  have hl : (s.take (4 * j)).length = 4 * j := by simp; omega
  have hw := words32_append (s.take (4 * j)) ((s.drop (4 * j)).take 4 ++ (s.drop (4 * j)).drop 4) j hl
  rw [← e, words32_append4 _ _ (by simp; omega)] at hw
  have hlen : (words32 (s.take (4 * j))).length = j := by rw [words32_length, hl]; omega
  rw [hw, List.getElem?_append_right (by omega), hlen]
  simp

end Sys2Proof.Machine
end

