-- ==== Sys2Proof/Laws/Flags.lean ====
section
/-! SUPPORT. The bits of the `STATUS` word, one lemma each (spec/10_state.md R24). -/

namespace Sys2Proof.Machine

/-- A byte of eight flags above twenty-four zero bits: every bit at once. -/
theorem flagByte_bits :
    ∀ (f7 f6 f5 f4 f3 f2 f1 f0 : Bool) (n : Fin 32),
      (0#24 ++ BitVec.ofBool f7 ++ BitVec.ofBool f6 ++ BitVec.ofBool f5 ++ BitVec.ofBool f4 ++
          BitVec.ofBool f3 ++ BitVec.ofBool f2 ++ BitVec.ofBool f1 ++ BitVec.ofBool f0 :
          Word).getLsbD n.val =
        [f0, f1, f2, f3, f4, f5, f6, f7].getD n.val false := by
  decide +kernel

theorem statusWord_getLsbD (b : Block) (n : Fin 32) :
    b.statusWord.getLsbD n.val =
      [b.busy, b.done, b.err, b.dv, b.iv, b.gv, b.sv, b.entOk].getD n.val false :=
  flagByte_bits _ _ _ _ _ _ _ _ n

theorem statusWord_busy (b : Block) : b.statusWord.getLsbD 0 = b.busy := statusWord_getLsbD b 0

theorem statusWord_done (b : Block) : b.statusWord.getLsbD 1 = b.done := statusWord_getLsbD b 1

theorem statusWord_err (b : Block) : b.statusWord.getLsbD 2 = b.err := statusWord_getLsbD b 2

theorem statusWord_dv (b : Block) : b.statusWord.getLsbD 3 = b.dv := statusWord_getLsbD b 3

theorem statusWord_iv (b : Block) : b.statusWord.getLsbD 4 = b.iv := statusWord_getLsbD b 4

theorem statusWord_gv (b : Block) : b.statusWord.getLsbD 5 = b.gv := statusWord_getLsbD b 5

theorem statusWord_sv (b : Block) : b.statusWord.getLsbD 6 = b.sv := statusWord_getLsbD b 6

theorem statusWord_entOk (b : Block) : b.statusWord.getLsbD 7 = b.entOk := statusWord_getLsbD b 7

end Sys2Proof.Machine
end

