-- ==== Sys2Proof/Laws/Hash.lean ====
section
/-! SUPPORT. Laws of the hash functions: lengths, and how blocks are absorbed (spec/40_sha256.md R125 to
R130, spec/42_kdf.md R175 to R181). -/

namespace Sys2Proof.Machine

@[simp] theorem HashVars.toList_length {w : Nat} (v : HashVars w) : v.toList.length = 8 := rfl

/-- R130: the digest has 32 bytes. -/
@[simp] theorem sha256_length (m : List Byte) : (sha256 m).length = 32 := by
  simp [sha256, bytesOfWords_length]

/-- R179: the digest has 64 bytes. -/
@[simp] theorem sha512_length (m : List Byte) : (sha512 m).length = 64 := by
  simp [sha512, bytesOfWords_length]

/-- R43, R130: the words of the digest are the final hash words. -/
@[simp] theorem words32_sha256 (m : List Byte) : words32 (sha256 m) = (sha256State m).toList :=
  words32_bytesOfWords _

/-- R42, R9: byte `r` of a word, as the number it is. -/
theorem wordByte_eq (w : Word) (r : Nat) (h : r < 4) :
    wordByte w r = BitVec.ofNat 8 (w.toNat >>> (8 * (3 - r))) := by
  apply BitVec.eq_of_toNat_eq
  simp only [wordByte, BitVec.extractLsb'_toNat, BitVec.toNat_ofNat]
  congr 2; omega

/-- R43: the first digest byte is the top byte of the first hash word. -/
theorem sha256_take_one (m : List Byte) :
    (sha256 m).take 1 = [wordByte (sha256State m).a 0] := by
  rw [sha256, HashVars.toList, bytesOfWords, List.flatMap_cons,
    List.take_append_of_le_length (by simp), wordByte_eq _ _ (by omega)]
  simp only [beBytes, List.range_succ]
  simp
  rw [show (255#8 : Byte) = BitVec.allOnes 8 from rfl, BitVec.and_allOnes]

/-- R180: `K0` always has 128 bytes. -/
@[simp] theorem keyBlock_length (key : List Byte) : (keyBlock key).length = 128 := by
  unfold keyBlock
  split
  · simp; omega
  · simp

@[simp] theorem ipad_length : ipad.length = 128 := by simp [ipad]

@[simp] theorem opad_length : opad.length = 128 := by simp [opad]

/-- R181: the result of HMAC has 64 bytes. -/
@[simp] theorem hmac512_length (key text : List Byte) : (hmac512 key text).length = 64 := by
  simp [hmac512]

/-- The accumulated exclusive or keeps its length when every PRF output has it (R185, R189). -/
theorem prfIterate_length (prf : List Byte → List Byte) (n len : Nat) (u t : List Byte)
    (hp : ∀ x, (prf x).length = len) (ht : t.length = len) :
    (prfIterate prf n u t).length = len := by
  induction n generalizing u t with
  | zero => exact ht
  | succ n ih => exact ih _ _ (by simp [hp, ht])

/-- Absorbing `m + n` blocks is absorbing `m`, then `n` (R126, R176). -/
theorem absorbBlocks_add {w : Nat} (p : HashParams w) (m n : Nat) (hv : HashVars w)
    (ws : List (BitVec w)) :
    absorbBlocks p (m + n) hv ws =
      absorbBlocks p n (absorbBlocks p m hv ws) (ws.drop (16 * m)) := by
  induction m generalizing hv ws with
  | zero => simp [absorbBlocks]
  | succ m ih =>
    rw [Nat.succ_add, absorbBlocks, ih, absorbBlocks, List.drop_drop]
    congr 2
    ring

/-- The zero bytes of the padding, computed without integers below zero: enough to reach a whole
number of blocks (R125, R175). -/
theorem padZeros_eq (c m L : Nat) (hm : 0 < m) :
    ∃ z, (((c : Int) - (L : Int)) % (m : Int)).toNat = z ∧ z < m ∧ (L + z) % m = c % m := by
  have h0 : 0 ≤ ((c : Int) - (L : Int)) % (m : Int) := Int.emod_nonneg _ (by omega)
  have h1 : ((c : Int) - (L : Int)) % (m : Int) < m := Int.emod_lt_of_pos _ (by omega)
  refine ⟨_, rfl, by omega, ?_⟩
  have h2 : ((L : Int) + ((c : Int) - (L : Int)) % (m : Int)) % (m : Int) = (c : Int) % m := by
    rw [Int.add_emod, Int.emod_emod_of_dvd _ (dvd_refl _), ← Int.add_emod]
    congr 1; ring
  have h3 : (((L + (((c : Int) - (L : Int)) % (m : Int)).toNat) % m : Nat) : Int) = ((c % m : Nat) : Int) := by
    rw [Int.natCast_mod, Int.natCast_mod, Int.natCast_add, Int.toNat_of_nonneg h0]
    exact h2
  exact_mod_cast h3

end Sys2Proof.Machine
end

