-- ==== Sys2Proof/Laws/Groups.lean ====
section
/-! SUPPORT. Laws of the group extractor (spec/41_bitgroup.md R152 to R154). -/

namespace Sys2Proof.Machine

/-- R154: a group the buffer can supply. -/
theorem groupOf_ok (cb : List Byte) (g : Nat) (h : 11 * g + 11 ≤ bitlen cb) :
    groupOf cb g = .ok (BitVec.ofNat 11 (takeBits cb (11 * g) 11)) := by
  have h' : ¬ bitlen cb < 11 * g + 11 := by omega
  simp [groupOf, Config.groupBits, h']

/-- R154: a group the buffer cannot supply. -/
theorem groupOf_error (cb : List Byte) (g : Nat) (h : bitlen cb < 11 * g + 11) :
    groupOf cb g = .error g := by
  simp [groupOf, Config.groupBits, h]

/-- R152: `g < n_groups` is the same as `11g + 11 <= bitlen(CB)`. -/
theorem lt_groupCount_iff (len g : Nat) : g < groupCount len ↔ 11 * g + 11 ≤ 8 * (len + 1) := by
  simp only [groupCount, Config.groupBits]; omega

/-- The loop of R153 succeeds when the buffer can supply every group, and says what it collects. -/
theorem extractGroups_ok (cb : List Byte) (n : Nat) (h : 11 * n ≤ bitlen cb) :
    ∃ vs, extractGroups cb n = .ok vs ∧ vs.length = n ∧
      ∀ g, g < n → groupOf cb g = .ok (vs.getD g 0#11) := by
  induction n with
  | zero => exact ⟨[], rfl, rfl, by simp⟩
  | succ n ih =>
    obtain ⟨vs, h1, h2, h3⟩ := ih (by omega)
    have hg := groupOf_ok cb n (by omega)
    refine ⟨vs ++ [BitVec.ofNat 11 (takeBits cb (11 * n) 11)], by simp [extractGroups, h1, hg],
      by simp [h2], ?_⟩
    intro g hgn
    by_cases e : g = n
    · subst e
      rw [hg, List.getD_append_right _ _ _ _ (by omega), h2]
      simp
    · rw [h3 g (by omega), List.getD_append _ _ _ _ (by omega)]

/-- R153: with a valid digest, `ExecGROUPS` succeeds; what it writes. -/
theorem procGroups_ok (b : Block) (h : b.dv = true) :
    ∃ vs, procGroups b = .ok (b.writeIndices (groupCount b.msgLen.toNat) vs) ∧
      vs.length = groupCount b.msgLen.toNat ∧
      ∀ g, g < groupCount b.msgLen.toNat → groupOf b.concatBuffer g = .ok (vs.getD g 0#11) := by
  obtain ⟨vs, h1, h2, h3⟩ := extractGroups_ok b.concatBuffer (groupCount b.msgLen.toNat)
    (by rw [Block.bitlen_concatBuffer]; simp only [groupCount, Config.groupBits]; omega)
  exact ⟨vs, by simp [procGroups, h, h1], h2, h3⟩

/-- R153: without a digest, `ExecGROUPS` faults. -/
theorem procGroups_noDigest (b : Block) (h : b.dv = false) :
    procGroups b = .fault .noDigest b.cur := by simp [procGroups, h]

/-- R155: what `ExecGROUP(k)` answers, in its three cases. -/
theorem procGroup_cases (k : Nat) (b : Block) :
    (b.dv = false ∧ procGroup k b = .fault .noDigest b.cur) ∨
    (b.dv = true ∧ bitlen b.concatBuffer < 11 * k + 11 ∧
      procGroup k b = .fault .bitRead (BitVec.ofNat 32 k)) ∨
    (b.dv = true ∧ 11 * k + 11 ≤ bitlen b.concatBuffer ∧
      ∃ v, groupOf b.concatBuffer k = .ok v ∧ procGroup k b = .ok (b.writeGroupSelect v)) := by
  cases hd : b.dv with
  | false => exact .inl ⟨rfl, by simp [procGroup, hd]⟩
  | true =>
    refine .inr ?_
    by_cases h : bitlen b.concatBuffer < 11 * k + 11
    · exact .inl ⟨rfl, h, by simp [procGroup, hd, groupOf_error _ _ h]⟩
    · have h' : 11 * k + 11 ≤ bitlen b.concatBuffer := by omega
      exact .inr ⟨rfl, h', _, groupOf_ok _ _ h', by simp [procGroup, hd, groupOf_ok _ _ h']⟩

/-- R151, R157: the concatenated buffer once `HASH` has written the digest. -/
theorem writeDigest_concatBuffer (b : Block) :
    b.writeDigest.concatBuffer = b.msgBytes ++ (sha256 b.msgBytes).take 1 := by
  rw [sha256_take_one]
  simp only [Block.concatBuffer, Block.digestByte0, Block.writeDigest, fillVector_getElem,
    words32_sha256]
  rfl

/-- R157: `ExecENCODE` always succeeds; what it writes. -/
theorem procEncode_ok (b : Block) :
    ∃ vs, procEncode b = .ok (b.writeDigest.writeIndices (groupCount b.msgLen.toNat) vs) ∧
      vs.length = groupCount b.msgLen.toNat ∧
      ∀ g, g < groupCount b.msgLen.toNat →
        groupOf b.writeDigest.concatBuffer g = .ok (vs.getD g 0#11) :=
  procGroups_ok b.writeDigest rfl

end Sys2Proof.Machine
end

