-- ==== Sys2Proof/Laws/PerInstr.lean ====
section
/-! SUPPORT. Statements made per instruction: the fields of every command's encoding (spec/30_encoding.md R91). -/

namespace Sys2Proof.Laws

/-- R91: the number a command word is, from its three fields. -/
theorem fieldsWord_toNat (k op : BitVec 8) :
    BitVec.toNat (0#16 ++ k ++ op : Word) = 256 * k.toNat + op.toNat := by
  have h1 := BitVec.toNat_append (0#16 ++ k) op
  have h2 := BitVec.toNat_append 0#16 k
  have ho := op.isLt
  have hk := k.isLt
  rw [h2, ← Nat.shiftLeft_add_eq_or_of_lt ho, ← Nat.shiftLeft_add_eq_or_of_lt hk,
    Nat.shiftLeft_eq, Nat.shiftLeft_eq] at h1
  refine h1.trans ?_
  simp
  ring

/-- R91: a command word is its three fields side by side. -/
theorem encodingFields_of_fields (k op : BitVec 8) :
    rsvField (0#16 ++ k ++ op) = 0#16 ∧ kField (0#16 ++ k ++ op) = k ∧
      opField (0#16 ++ k ++ op) = op := by
  have hk := k.isLt
  have ho := op.isLt
  refine ⟨?_, ?_, ?_⟩ <;>
    · apply BitVec.eq_of_toNat_eq
      simp only [rsvField, kField, opField, BitVec.extractLsb'_toNat, fieldsWord_toNat,
        Nat.shiftRight_eq_div_pow, BitVec.toNat_ofNat]
      omega

/-- R91: the reserved field of the encoding is zero, the opcode field is the command's opcode, and the
operand field its operand. -/
def EncodingFields.Statement (i : Instr) : Prop :=
  rsvField (encode i) = 0#16 ∧ kField (encode i) = i.operand ∧ opField (encode i) = i.opcode

theorem EncodingFields.nop : EncodingFields.Statement .nop := encodingFields_of_fields _ _

theorem EncodingFields.hash : EncodingFields.Statement .hash := encodingFields_of_fields _ _

theorem EncodingFields.groups : EncodingFields.Statement .groups := encodingFields_of_fields _ _

theorem EncodingFields.group (k : Nat) : EncodingFields.Statement (.group k) :=
  encodingFields_of_fields _ _

theorem EncodingFields.encode : EncodingFields.Statement .encode := encodingFields_of_fields _ _

theorem EncodingFields.seed : EncodingFields.Statement .seed := encodingFields_of_fields _ _

theorem EncodingFields.clr : EncodingFields.Statement .clr := encodingFields_of_fields _ _

end Sys2Proof.Laws
end

