-- ==== Sys2Proof/Laws/State.lean ====
section
/-! SUPPORT. One lemma per field of `Block` per named update of the block, and what the updates do to
the byte strings and flags computed from the block; every one true by unfolding. -/

namespace Sys2Proof.Machine

variable (b : Block)

/-! `Block.clearIndices` -/

@[simp] theorem Block.clearIndices_msg : b.clearIndices.msg = b.msg := rfl
@[simp] theorem Block.clearIndices_msgLen : b.clearIndices.msgLen = b.msgLen := rfl
@[simp] theorem Block.clearIndices_digest : b.clearIndices.digest = b.digest := rfl
@[simp] theorem Block.clearIndices_idx : b.clearIndices.idx = Vector.replicate 24 0#11 := rfl
@[simp] theorem Block.clearIndices_ngroups : b.clearIndices.ngroups = 0#5 := rfl
@[simp] theorem Block.clearIndices_gsel : b.clearIndices.gsel = b.gsel := rfl
@[simp] theorem Block.clearIndices_pwd : b.clearIndices.pwd = b.pwd := rfl
@[simp] theorem Block.clearIndices_pwdLen : b.clearIndices.pwdLen = b.pwdLen := rfl
@[simp] theorem Block.clearIndices_salt : b.clearIndices.salt = b.salt := rfl
@[simp] theorem Block.clearIndices_saltLen : b.clearIndices.saltLen = b.saltLen := rfl
@[simp] theorem Block.clearIndices_seed : b.clearIndices.seed = b.seed := rfl
@[simp] theorem Block.clearIndices_busy : b.clearIndices.busy = b.busy := rfl
@[simp] theorem Block.clearIndices_done : b.clearIndices.done = b.done := rfl
@[simp] theorem Block.clearIndices_err : b.clearIndices.err = b.err := rfl
@[simp] theorem Block.clearIndices_dv : b.clearIndices.dv = b.dv := rfl
@[simp] theorem Block.clearIndices_iv : b.clearIndices.iv = false := rfl
@[simp] theorem Block.clearIndices_gv : b.clearIndices.gv = b.gv := rfl
@[simp] theorem Block.clearIndices_sv : b.clearIndices.sv = b.sv := rfl
@[simp] theorem Block.clearIndices_ieDone : b.clearIndices.ieDone = b.ieDone := rfl
@[simp] theorem Block.clearIndices_ieErr : b.clearIndices.ieErr = b.ieErr := rfl
@[simp] theorem Block.clearIndices_errcode : b.clearIndices.errcode = b.errcode := rfl
@[simp] theorem Block.clearIndices_errinfo : b.clearIndices.errinfo = b.errinfo := rfl
@[simp] theorem Block.clearIndices_cur : b.clearIndices.cur = b.cur := rfl
@[simp] theorem Block.clearIndices_msgBytes : b.clearIndices.msgBytes = b.msgBytes := rfl
@[simp] theorem Block.clearIndices_pwdBytes : b.clearIndices.pwdBytes = b.pwdBytes := rfl
@[simp] theorem Block.clearIndices_passBytes : b.clearIndices.passBytes = b.passBytes := rfl
@[simp] theorem Block.clearIndices_concatBuffer : b.clearIndices.concatBuffer = b.concatBuffer := rfl
@[simp] theorem Block.clearIndices_entOk : b.clearIndices.entOk = b.entOk := rfl
@[simp] theorem Block.clearIndices_fetchCommand : b.clearIndices.fetchCommand = b.fetchCommand := rfl

/-! `Block.clearGroupSelect` -/

@[simp] theorem Block.clearGroupSelect_msg : b.clearGroupSelect.msg = b.msg := rfl
@[simp] theorem Block.clearGroupSelect_msgLen : b.clearGroupSelect.msgLen = b.msgLen := rfl
@[simp] theorem Block.clearGroupSelect_digest : b.clearGroupSelect.digest = b.digest := rfl
@[simp] theorem Block.clearGroupSelect_idx : b.clearGroupSelect.idx = b.idx := rfl
@[simp] theorem Block.clearGroupSelect_ngroups : b.clearGroupSelect.ngroups = b.ngroups := rfl
@[simp] theorem Block.clearGroupSelect_gsel : b.clearGroupSelect.gsel = 0#11 := rfl
@[simp] theorem Block.clearGroupSelect_pwd : b.clearGroupSelect.pwd = b.pwd := rfl
@[simp] theorem Block.clearGroupSelect_pwdLen : b.clearGroupSelect.pwdLen = b.pwdLen := rfl
@[simp] theorem Block.clearGroupSelect_salt : b.clearGroupSelect.salt = b.salt := rfl
@[simp] theorem Block.clearGroupSelect_saltLen : b.clearGroupSelect.saltLen = b.saltLen := rfl
@[simp] theorem Block.clearGroupSelect_seed : b.clearGroupSelect.seed = b.seed := rfl
@[simp] theorem Block.clearGroupSelect_busy : b.clearGroupSelect.busy = b.busy := rfl
@[simp] theorem Block.clearGroupSelect_done : b.clearGroupSelect.done = b.done := rfl
@[simp] theorem Block.clearGroupSelect_err : b.clearGroupSelect.err = b.err := rfl
@[simp] theorem Block.clearGroupSelect_dv : b.clearGroupSelect.dv = b.dv := rfl
@[simp] theorem Block.clearGroupSelect_iv : b.clearGroupSelect.iv = b.iv := rfl
@[simp] theorem Block.clearGroupSelect_gv : b.clearGroupSelect.gv = false := rfl
@[simp] theorem Block.clearGroupSelect_sv : b.clearGroupSelect.sv = b.sv := rfl
@[simp] theorem Block.clearGroupSelect_ieDone : b.clearGroupSelect.ieDone = b.ieDone := rfl
@[simp] theorem Block.clearGroupSelect_ieErr : b.clearGroupSelect.ieErr = b.ieErr := rfl
@[simp] theorem Block.clearGroupSelect_errcode : b.clearGroupSelect.errcode = b.errcode := rfl
@[simp] theorem Block.clearGroupSelect_errinfo : b.clearGroupSelect.errinfo = b.errinfo := rfl
@[simp] theorem Block.clearGroupSelect_cur : b.clearGroupSelect.cur = b.cur := rfl
@[simp] theorem Block.clearGroupSelect_msgBytes : b.clearGroupSelect.msgBytes = b.msgBytes := rfl
@[simp] theorem Block.clearGroupSelect_pwdBytes : b.clearGroupSelect.pwdBytes = b.pwdBytes := rfl
@[simp] theorem Block.clearGroupSelect_passBytes : b.clearGroupSelect.passBytes = b.passBytes := rfl
@[simp] theorem Block.clearGroupSelect_concatBuffer : b.clearGroupSelect.concatBuffer = b.concatBuffer := rfl
@[simp] theorem Block.clearGroupSelect_entOk : b.clearGroupSelect.entOk = b.entOk := rfl
@[simp] theorem Block.clearGroupSelect_fetchCommand : b.clearGroupSelect.fetchCommand = b.fetchCommand := rfl

/-! `Block.clearDigest` -/

@[simp] theorem Block.clearDigest_msg : b.clearDigest.msg = b.msg := rfl
@[simp] theorem Block.clearDigest_msgLen : b.clearDigest.msgLen = b.msgLen := rfl
@[simp] theorem Block.clearDigest_digest : b.clearDigest.digest = Vector.replicate 8 0#32 := rfl
@[simp] theorem Block.clearDigest_idx : b.clearDigest.idx = b.idx := rfl
@[simp] theorem Block.clearDigest_ngroups : b.clearDigest.ngroups = b.ngroups := rfl
@[simp] theorem Block.clearDigest_gsel : b.clearDigest.gsel = b.gsel := rfl
@[simp] theorem Block.clearDigest_pwd : b.clearDigest.pwd = b.pwd := rfl
@[simp] theorem Block.clearDigest_pwdLen : b.clearDigest.pwdLen = b.pwdLen := rfl
@[simp] theorem Block.clearDigest_salt : b.clearDigest.salt = b.salt := rfl
@[simp] theorem Block.clearDigest_saltLen : b.clearDigest.saltLen = b.saltLen := rfl
@[simp] theorem Block.clearDigest_seed : b.clearDigest.seed = b.seed := rfl
@[simp] theorem Block.clearDigest_busy : b.clearDigest.busy = b.busy := rfl
@[simp] theorem Block.clearDigest_done : b.clearDigest.done = b.done := rfl
@[simp] theorem Block.clearDigest_err : b.clearDigest.err = b.err := rfl
@[simp] theorem Block.clearDigest_dv : b.clearDigest.dv = false := rfl
@[simp] theorem Block.clearDigest_iv : b.clearDigest.iv = b.iv := rfl
@[simp] theorem Block.clearDigest_gv : b.clearDigest.gv = b.gv := rfl
@[simp] theorem Block.clearDigest_sv : b.clearDigest.sv = b.sv := rfl
@[simp] theorem Block.clearDigest_ieDone : b.clearDigest.ieDone = b.ieDone := rfl
@[simp] theorem Block.clearDigest_ieErr : b.clearDigest.ieErr = b.ieErr := rfl
@[simp] theorem Block.clearDigest_errcode : b.clearDigest.errcode = b.errcode := rfl
@[simp] theorem Block.clearDigest_errinfo : b.clearDigest.errinfo = b.errinfo := rfl
@[simp] theorem Block.clearDigest_cur : b.clearDigest.cur = b.cur := rfl
@[simp] theorem Block.clearDigest_msgBytes : b.clearDigest.msgBytes = b.msgBytes := rfl
@[simp] theorem Block.clearDigest_pwdBytes : b.clearDigest.pwdBytes = b.pwdBytes := rfl
@[simp] theorem Block.clearDigest_passBytes : b.clearDigest.passBytes = b.passBytes := rfl
@[simp] theorem Block.clearDigest_entOk : b.clearDigest.entOk = b.entOk := rfl
@[simp] theorem Block.clearDigest_fetchCommand : b.clearDigest.fetchCommand = b.fetchCommand := rfl

/-! `Block.invalM` -/

@[simp] theorem Block.invalM_msg : b.invalM.msg = b.msg := rfl
@[simp] theorem Block.invalM_msgLen : b.invalM.msgLen = b.msgLen := rfl
@[simp] theorem Block.invalM_digest : b.invalM.digest = Vector.replicate 8 0#32 := rfl
@[simp] theorem Block.invalM_idx : b.invalM.idx = Vector.replicate 24 0#11 := rfl
@[simp] theorem Block.invalM_ngroups : b.invalM.ngroups = 0#5 := rfl
@[simp] theorem Block.invalM_gsel : b.invalM.gsel = 0#11 := rfl
@[simp] theorem Block.invalM_pwd : b.invalM.pwd = b.pwd := rfl
@[simp] theorem Block.invalM_pwdLen : b.invalM.pwdLen = b.pwdLen := rfl
@[simp] theorem Block.invalM_salt : b.invalM.salt = b.salt := rfl
@[simp] theorem Block.invalM_saltLen : b.invalM.saltLen = b.saltLen := rfl
@[simp] theorem Block.invalM_seed : b.invalM.seed = b.seed := rfl
@[simp] theorem Block.invalM_busy : b.invalM.busy = b.busy := rfl
@[simp] theorem Block.invalM_done : b.invalM.done = b.done := rfl
@[simp] theorem Block.invalM_err : b.invalM.err = b.err := rfl
@[simp] theorem Block.invalM_dv : b.invalM.dv = false := rfl
@[simp] theorem Block.invalM_iv : b.invalM.iv = false := rfl
@[simp] theorem Block.invalM_gv : b.invalM.gv = false := rfl
@[simp] theorem Block.invalM_sv : b.invalM.sv = b.sv := rfl
@[simp] theorem Block.invalM_ieDone : b.invalM.ieDone = b.ieDone := rfl
@[simp] theorem Block.invalM_ieErr : b.invalM.ieErr = b.ieErr := rfl
@[simp] theorem Block.invalM_errcode : b.invalM.errcode = b.errcode := rfl
@[simp] theorem Block.invalM_errinfo : b.invalM.errinfo = b.errinfo := rfl
@[simp] theorem Block.invalM_cur : b.invalM.cur = b.cur := rfl
@[simp] theorem Block.invalM_msgBytes : b.invalM.msgBytes = b.msgBytes := rfl
@[simp] theorem Block.invalM_pwdBytes : b.invalM.pwdBytes = b.pwdBytes := rfl
@[simp] theorem Block.invalM_passBytes : b.invalM.passBytes = b.passBytes := rfl
@[simp] theorem Block.invalM_entOk : b.invalM.entOk = b.entOk := rfl
@[simp] theorem Block.invalM_fetchCommand : b.invalM.fetchCommand = b.fetchCommand := rfl

/-! `Block.invalK` -/

@[simp] theorem Block.invalK_msg : b.invalK.msg = b.msg := rfl
@[simp] theorem Block.invalK_msgLen : b.invalK.msgLen = b.msgLen := rfl
@[simp] theorem Block.invalK_digest : b.invalK.digest = b.digest := rfl
@[simp] theorem Block.invalK_idx : b.invalK.idx = b.idx := rfl
@[simp] theorem Block.invalK_ngroups : b.invalK.ngroups = b.ngroups := rfl
@[simp] theorem Block.invalK_gsel : b.invalK.gsel = b.gsel := rfl
@[simp] theorem Block.invalK_pwd : b.invalK.pwd = b.pwd := rfl
@[simp] theorem Block.invalK_pwdLen : b.invalK.pwdLen = b.pwdLen := rfl
@[simp] theorem Block.invalK_salt : b.invalK.salt = b.salt := rfl
@[simp] theorem Block.invalK_saltLen : b.invalK.saltLen = b.saltLen := rfl
@[simp] theorem Block.invalK_seed : b.invalK.seed = Vector.replicate 16 0#32 := rfl
@[simp] theorem Block.invalK_busy : b.invalK.busy = b.busy := rfl
@[simp] theorem Block.invalK_done : b.invalK.done = b.done := rfl
@[simp] theorem Block.invalK_err : b.invalK.err = b.err := rfl
@[simp] theorem Block.invalK_dv : b.invalK.dv = b.dv := rfl
@[simp] theorem Block.invalK_iv : b.invalK.iv = b.iv := rfl
@[simp] theorem Block.invalK_gv : b.invalK.gv = b.gv := rfl
@[simp] theorem Block.invalK_sv : b.invalK.sv = false := rfl
@[simp] theorem Block.invalK_ieDone : b.invalK.ieDone = b.ieDone := rfl
@[simp] theorem Block.invalK_ieErr : b.invalK.ieErr = b.ieErr := rfl
@[simp] theorem Block.invalK_errcode : b.invalK.errcode = b.errcode := rfl
@[simp] theorem Block.invalK_errinfo : b.invalK.errinfo = b.errinfo := rfl
@[simp] theorem Block.invalK_cur : b.invalK.cur = b.cur := rfl
@[simp] theorem Block.invalK_msgBytes : b.invalK.msgBytes = b.msgBytes := rfl
@[simp] theorem Block.invalK_pwdBytes : b.invalK.pwdBytes = b.pwdBytes := rfl
@[simp] theorem Block.invalK_passBytes : b.invalK.passBytes = b.passBytes := rfl
@[simp] theorem Block.invalK_concatBuffer : b.invalK.concatBuffer = b.concatBuffer := rfl
@[simp] theorem Block.invalK_entOk : b.invalK.entOk = b.entOk := rfl
@[simp] theorem Block.invalK_fetchCommand : b.invalK.fetchCommand = b.fetchCommand := rfl

/-! `Block.clearInputs` -/

@[simp] theorem Block.clearInputs_msg : b.clearInputs.msg = Vector.replicate 8 0#32 := rfl
@[simp] theorem Block.clearInputs_msgLen : b.clearInputs.msgLen = 0#6 := rfl
@[simp] theorem Block.clearInputs_digest : b.clearInputs.digest = b.digest := rfl
@[simp] theorem Block.clearInputs_idx : b.clearInputs.idx = b.idx := rfl
@[simp] theorem Block.clearInputs_ngroups : b.clearInputs.ngroups = b.ngroups := rfl
@[simp] theorem Block.clearInputs_gsel : b.clearInputs.gsel = b.gsel := rfl
@[simp] theorem Block.clearInputs_pwd : b.clearInputs.pwd = Vector.replicate 256 0#32 := rfl
@[simp] theorem Block.clearInputs_pwdLen : b.clearInputs.pwdLen = 0#11 := rfl
@[simp] theorem Block.clearInputs_salt : b.clearInputs.salt = Vector.replicate 64 0#32 := rfl
@[simp] theorem Block.clearInputs_saltLen : b.clearInputs.saltLen = 0#9 := rfl
@[simp] theorem Block.clearInputs_seed : b.clearInputs.seed = b.seed := rfl
@[simp] theorem Block.clearInputs_busy : b.clearInputs.busy = b.busy := rfl
@[simp] theorem Block.clearInputs_done : b.clearInputs.done = b.done := rfl
@[simp] theorem Block.clearInputs_err : b.clearInputs.err = b.err := rfl
@[simp] theorem Block.clearInputs_dv : b.clearInputs.dv = b.dv := rfl
@[simp] theorem Block.clearInputs_iv : b.clearInputs.iv = b.iv := rfl
@[simp] theorem Block.clearInputs_gv : b.clearInputs.gv = b.gv := rfl
@[simp] theorem Block.clearInputs_sv : b.clearInputs.sv = b.sv := rfl
@[simp] theorem Block.clearInputs_ieDone : b.clearInputs.ieDone = b.ieDone := rfl
@[simp] theorem Block.clearInputs_ieErr : b.clearInputs.ieErr = b.ieErr := rfl
@[simp] theorem Block.clearInputs_errcode : b.clearInputs.errcode = b.errcode := rfl
@[simp] theorem Block.clearInputs_errinfo : b.clearInputs.errinfo = b.errinfo := rfl
@[simp] theorem Block.clearInputs_cur : b.clearInputs.cur = b.cur := rfl
@[simp] theorem Block.clearInputs_fetchCommand : b.clearInputs.fetchCommand = b.fetchCommand := rfl

/-! `Block.clearAll` -/

@[simp] theorem Block.clearAll_msg : b.clearAll.msg = Vector.replicate 8 0#32 := rfl
@[simp] theorem Block.clearAll_msgLen : b.clearAll.msgLen = 0#6 := rfl
@[simp] theorem Block.clearAll_digest : b.clearAll.digest = Vector.replicate 8 0#32 := rfl
@[simp] theorem Block.clearAll_idx : b.clearAll.idx = Vector.replicate 24 0#11 := rfl
@[simp] theorem Block.clearAll_ngroups : b.clearAll.ngroups = 0#5 := rfl
@[simp] theorem Block.clearAll_gsel : b.clearAll.gsel = 0#11 := rfl
@[simp] theorem Block.clearAll_pwd : b.clearAll.pwd = Vector.replicate 256 0#32 := rfl
@[simp] theorem Block.clearAll_pwdLen : b.clearAll.pwdLen = 0#11 := rfl
@[simp] theorem Block.clearAll_salt : b.clearAll.salt = Vector.replicate 64 0#32 := rfl
@[simp] theorem Block.clearAll_saltLen : b.clearAll.saltLen = 0#9 := rfl
@[simp] theorem Block.clearAll_seed : b.clearAll.seed = Vector.replicate 16 0#32 := rfl
@[simp] theorem Block.clearAll_busy : b.clearAll.busy = b.busy := rfl
@[simp] theorem Block.clearAll_done : b.clearAll.done = b.done := rfl
@[simp] theorem Block.clearAll_err : b.clearAll.err = b.err := rfl
@[simp] theorem Block.clearAll_dv : b.clearAll.dv = false := rfl
@[simp] theorem Block.clearAll_iv : b.clearAll.iv = false := rfl
@[simp] theorem Block.clearAll_gv : b.clearAll.gv = false := rfl
@[simp] theorem Block.clearAll_sv : b.clearAll.sv = false := rfl
@[simp] theorem Block.clearAll_ieDone : b.clearAll.ieDone = b.ieDone := rfl
@[simp] theorem Block.clearAll_ieErr : b.clearAll.ieErr = b.ieErr := rfl
@[simp] theorem Block.clearAll_errcode : b.clearAll.errcode = b.errcode := rfl
@[simp] theorem Block.clearAll_errinfo : b.clearAll.errinfo = b.errinfo := rfl
@[simp] theorem Block.clearAll_cur : b.clearAll.cur = b.cur := rfl
@[simp] theorem Block.clearAll_fetchCommand : b.clearAll.fetchCommand = b.fetchCommand := rfl

/-! `Block.raiseFault` -/

@[simp] theorem Block.raiseFault_msg (f : CmdFault) (info : Word) : (b.raiseFault f info).msg = b.msg := rfl
@[simp] theorem Block.raiseFault_msgLen (f : CmdFault) (info : Word) : (b.raiseFault f info).msgLen = b.msgLen := rfl
@[simp] theorem Block.raiseFault_digest (f : CmdFault) (info : Word) : (b.raiseFault f info).digest = b.digest := rfl
@[simp] theorem Block.raiseFault_idx (f : CmdFault) (info : Word) : (b.raiseFault f info).idx = b.idx := rfl
@[simp] theorem Block.raiseFault_ngroups (f : CmdFault) (info : Word) : (b.raiseFault f info).ngroups = b.ngroups := rfl
@[simp] theorem Block.raiseFault_gsel (f : CmdFault) (info : Word) : (b.raiseFault f info).gsel = b.gsel := rfl
@[simp] theorem Block.raiseFault_pwd (f : CmdFault) (info : Word) : (b.raiseFault f info).pwd = b.pwd := rfl
@[simp] theorem Block.raiseFault_pwdLen (f : CmdFault) (info : Word) : (b.raiseFault f info).pwdLen = b.pwdLen := rfl
@[simp] theorem Block.raiseFault_salt (f : CmdFault) (info : Word) : (b.raiseFault f info).salt = b.salt := rfl
@[simp] theorem Block.raiseFault_saltLen (f : CmdFault) (info : Word) : (b.raiseFault f info).saltLen = b.saltLen := rfl
@[simp] theorem Block.raiseFault_seed (f : CmdFault) (info : Word) : (b.raiseFault f info).seed = b.seed := rfl
@[simp] theorem Block.raiseFault_busy (f : CmdFault) (info : Word) : (b.raiseFault f info).busy = b.busy := rfl
@[simp] theorem Block.raiseFault_done (f : CmdFault) (info : Word) : (b.raiseFault f info).done = b.done := rfl
@[simp] theorem Block.raiseFault_err (f : CmdFault) (info : Word) : (b.raiseFault f info).err = true := rfl
@[simp] theorem Block.raiseFault_dv (f : CmdFault) (info : Word) : (b.raiseFault f info).dv = b.dv := rfl
@[simp] theorem Block.raiseFault_iv (f : CmdFault) (info : Word) : (b.raiseFault f info).iv = b.iv := rfl
@[simp] theorem Block.raiseFault_gv (f : CmdFault) (info : Word) : (b.raiseFault f info).gv = b.gv := rfl
@[simp] theorem Block.raiseFault_sv (f : CmdFault) (info : Word) : (b.raiseFault f info).sv = b.sv := rfl
@[simp] theorem Block.raiseFault_ieDone (f : CmdFault) (info : Word) : (b.raiseFault f info).ieDone = b.ieDone := rfl
@[simp] theorem Block.raiseFault_ieErr (f : CmdFault) (info : Word) : (b.raiseFault f info).ieErr = b.ieErr := rfl
@[simp] theorem Block.raiseFault_errcode (f : CmdFault) (info : Word) : (b.raiseFault f info).errcode = f.code := rfl
@[simp] theorem Block.raiseFault_errinfo (f : CmdFault) (info : Word) : (b.raiseFault f info).errinfo = info := rfl
@[simp] theorem Block.raiseFault_cur (f : CmdFault) (info : Word) : (b.raiseFault f info).cur = b.cur := rfl
@[simp] theorem Block.raiseFault_msgBytes (f : CmdFault) (info : Word) : (b.raiseFault f info).msgBytes = b.msgBytes := rfl
@[simp] theorem Block.raiseFault_pwdBytes (f : CmdFault) (info : Word) : (b.raiseFault f info).pwdBytes = b.pwdBytes := rfl
@[simp] theorem Block.raiseFault_passBytes (f : CmdFault) (info : Word) : (b.raiseFault f info).passBytes = b.passBytes := rfl
@[simp] theorem Block.raiseFault_concatBuffer (f : CmdFault) (info : Word) : (b.raiseFault f info).concatBuffer = b.concatBuffer := rfl
@[simp] theorem Block.raiseFault_entOk (f : CmdFault) (info : Word) : (b.raiseFault f info).entOk = b.entOk := rfl
@[simp] theorem Block.raiseFault_fetchCommand (f : CmdFault) (info : Word) : (b.raiseFault f info).fetchCommand = b.fetchCommand := rfl

/-! `Block.ackFault` -/

@[simp] theorem Block.ackFault_msg : b.ackFault.msg = b.msg := rfl
@[simp] theorem Block.ackFault_msgLen : b.ackFault.msgLen = b.msgLen := rfl
@[simp] theorem Block.ackFault_digest : b.ackFault.digest = b.digest := rfl
@[simp] theorem Block.ackFault_idx : b.ackFault.idx = b.idx := rfl
@[simp] theorem Block.ackFault_ngroups : b.ackFault.ngroups = b.ngroups := rfl
@[simp] theorem Block.ackFault_gsel : b.ackFault.gsel = b.gsel := rfl
@[simp] theorem Block.ackFault_pwd : b.ackFault.pwd = b.pwd := rfl
@[simp] theorem Block.ackFault_pwdLen : b.ackFault.pwdLen = b.pwdLen := rfl
@[simp] theorem Block.ackFault_salt : b.ackFault.salt = b.salt := rfl
@[simp] theorem Block.ackFault_saltLen : b.ackFault.saltLen = b.saltLen := rfl
@[simp] theorem Block.ackFault_seed : b.ackFault.seed = b.seed := rfl
@[simp] theorem Block.ackFault_busy : b.ackFault.busy = b.busy := rfl
@[simp] theorem Block.ackFault_done : b.ackFault.done = b.done := rfl
@[simp] theorem Block.ackFault_err : b.ackFault.err = false := rfl
@[simp] theorem Block.ackFault_dv : b.ackFault.dv = b.dv := rfl
@[simp] theorem Block.ackFault_iv : b.ackFault.iv = b.iv := rfl
@[simp] theorem Block.ackFault_gv : b.ackFault.gv = b.gv := rfl
@[simp] theorem Block.ackFault_sv : b.ackFault.sv = b.sv := rfl
@[simp] theorem Block.ackFault_ieDone : b.ackFault.ieDone = b.ieDone := rfl
@[simp] theorem Block.ackFault_ieErr : b.ackFault.ieErr = b.ieErr := rfl
@[simp] theorem Block.ackFault_errcode : b.ackFault.errcode = 0#8 := rfl
@[simp] theorem Block.ackFault_errinfo : b.ackFault.errinfo = 0#32 := rfl
@[simp] theorem Block.ackFault_cur : b.ackFault.cur = b.cur := rfl
@[simp] theorem Block.ackFault_msgBytes : b.ackFault.msgBytes = b.msgBytes := rfl
@[simp] theorem Block.ackFault_pwdBytes : b.ackFault.pwdBytes = b.pwdBytes := rfl
@[simp] theorem Block.ackFault_passBytes : b.ackFault.passBytes = b.passBytes := rfl
@[simp] theorem Block.ackFault_concatBuffer : b.ackFault.concatBuffer = b.concatBuffer := rfl
@[simp] theorem Block.ackFault_entOk : b.ackFault.entOk = b.entOk := rfl
@[simp] theorem Block.ackFault_fetchCommand : b.ackFault.fetchCommand = b.fetchCommand := rfl

/-! `Block.ackDone` -/

@[simp] theorem Block.ackDone_msg : b.ackDone.msg = b.msg := rfl
@[simp] theorem Block.ackDone_msgLen : b.ackDone.msgLen = b.msgLen := rfl
@[simp] theorem Block.ackDone_digest : b.ackDone.digest = b.digest := rfl
@[simp] theorem Block.ackDone_idx : b.ackDone.idx = b.idx := rfl
@[simp] theorem Block.ackDone_ngroups : b.ackDone.ngroups = b.ngroups := rfl
@[simp] theorem Block.ackDone_gsel : b.ackDone.gsel = b.gsel := rfl
@[simp] theorem Block.ackDone_pwd : b.ackDone.pwd = b.pwd := rfl
@[simp] theorem Block.ackDone_pwdLen : b.ackDone.pwdLen = b.pwdLen := rfl
@[simp] theorem Block.ackDone_salt : b.ackDone.salt = b.salt := rfl
@[simp] theorem Block.ackDone_saltLen : b.ackDone.saltLen = b.saltLen := rfl
@[simp] theorem Block.ackDone_seed : b.ackDone.seed = b.seed := rfl
@[simp] theorem Block.ackDone_busy : b.ackDone.busy = b.busy := rfl
@[simp] theorem Block.ackDone_done : b.ackDone.done = false := rfl
@[simp] theorem Block.ackDone_err : b.ackDone.err = b.err := rfl
@[simp] theorem Block.ackDone_dv : b.ackDone.dv = b.dv := rfl
@[simp] theorem Block.ackDone_iv : b.ackDone.iv = b.iv := rfl
@[simp] theorem Block.ackDone_gv : b.ackDone.gv = b.gv := rfl
@[simp] theorem Block.ackDone_sv : b.ackDone.sv = b.sv := rfl
@[simp] theorem Block.ackDone_ieDone : b.ackDone.ieDone = b.ieDone := rfl
@[simp] theorem Block.ackDone_ieErr : b.ackDone.ieErr = b.ieErr := rfl
@[simp] theorem Block.ackDone_errcode : b.ackDone.errcode = b.errcode := rfl
@[simp] theorem Block.ackDone_errinfo : b.ackDone.errinfo = b.errinfo := rfl
@[simp] theorem Block.ackDone_cur : b.ackDone.cur = b.cur := rfl
@[simp] theorem Block.ackDone_msgBytes : b.ackDone.msgBytes = b.msgBytes := rfl
@[simp] theorem Block.ackDone_pwdBytes : b.ackDone.pwdBytes = b.pwdBytes := rfl
@[simp] theorem Block.ackDone_passBytes : b.ackDone.passBytes = b.passBytes := rfl
@[simp] theorem Block.ackDone_concatBuffer : b.ackDone.concatBuffer = b.concatBuffer := rfl
@[simp] theorem Block.ackDone_entOk : b.ackDone.entOk = b.entOk := rfl
@[simp] theorem Block.ackDone_fetchCommand : b.ackDone.fetchCommand = b.fetchCommand := rfl

/-! `Block.finish` -/

@[simp] theorem Block.finish_msg : b.finish.msg = b.msg := rfl
@[simp] theorem Block.finish_msgLen : b.finish.msgLen = b.msgLen := rfl
@[simp] theorem Block.finish_digest : b.finish.digest = b.digest := rfl
@[simp] theorem Block.finish_idx : b.finish.idx = b.idx := rfl
@[simp] theorem Block.finish_ngroups : b.finish.ngroups = b.ngroups := rfl
@[simp] theorem Block.finish_gsel : b.finish.gsel = b.gsel := rfl
@[simp] theorem Block.finish_pwd : b.finish.pwd = b.pwd := rfl
@[simp] theorem Block.finish_pwdLen : b.finish.pwdLen = b.pwdLen := rfl
@[simp] theorem Block.finish_salt : b.finish.salt = b.salt := rfl
@[simp] theorem Block.finish_saltLen : b.finish.saltLen = b.saltLen := rfl
@[simp] theorem Block.finish_seed : b.finish.seed = b.seed := rfl
@[simp] theorem Block.finish_busy : b.finish.busy = false := rfl
@[simp] theorem Block.finish_done : b.finish.done = true := rfl
@[simp] theorem Block.finish_err : b.finish.err = b.err := rfl
@[simp] theorem Block.finish_dv : b.finish.dv = b.dv := rfl
@[simp] theorem Block.finish_iv : b.finish.iv = b.iv := rfl
@[simp] theorem Block.finish_gv : b.finish.gv = b.gv := rfl
@[simp] theorem Block.finish_sv : b.finish.sv = b.sv := rfl
@[simp] theorem Block.finish_ieDone : b.finish.ieDone = b.ieDone := rfl
@[simp] theorem Block.finish_ieErr : b.finish.ieErr = b.ieErr := rfl
@[simp] theorem Block.finish_errcode : b.finish.errcode = b.errcode := rfl
@[simp] theorem Block.finish_errinfo : b.finish.errinfo = b.errinfo := rfl
@[simp] theorem Block.finish_cur : b.finish.cur = b.cur := rfl
@[simp] theorem Block.finish_msgBytes : b.finish.msgBytes = b.msgBytes := rfl
@[simp] theorem Block.finish_pwdBytes : b.finish.pwdBytes = b.pwdBytes := rfl
@[simp] theorem Block.finish_passBytes : b.finish.passBytes = b.passBytes := rfl
@[simp] theorem Block.finish_concatBuffer : b.finish.concatBuffer = b.concatBuffer := rfl
@[simp] theorem Block.finish_entOk : b.finish.entOk = b.entOk := rfl
@[simp] theorem Block.finish_fetchCommand : b.finish.fetchCommand = b.fetchCommand := rfl

/-! `Block.writeDigest` -/

@[simp] theorem Block.writeDigest_msg : b.writeDigest.msg = b.msg := rfl
@[simp] theorem Block.writeDigest_msgLen : b.writeDigest.msgLen = b.msgLen := rfl
@[simp] theorem Block.writeDigest_digest : b.writeDigest.digest = fillVector 8 0#32 (words32 (sha256 b.msgBytes)) := rfl
@[simp] theorem Block.writeDigest_idx : b.writeDigest.idx = b.idx := rfl
@[simp] theorem Block.writeDigest_ngroups : b.writeDigest.ngroups = b.ngroups := rfl
@[simp] theorem Block.writeDigest_gsel : b.writeDigest.gsel = b.gsel := rfl
@[simp] theorem Block.writeDigest_pwd : b.writeDigest.pwd = b.pwd := rfl
@[simp] theorem Block.writeDigest_pwdLen : b.writeDigest.pwdLen = b.pwdLen := rfl
@[simp] theorem Block.writeDigest_salt : b.writeDigest.salt = b.salt := rfl
@[simp] theorem Block.writeDigest_saltLen : b.writeDigest.saltLen = b.saltLen := rfl
@[simp] theorem Block.writeDigest_seed : b.writeDigest.seed = b.seed := rfl
@[simp] theorem Block.writeDigest_busy : b.writeDigest.busy = b.busy := rfl
@[simp] theorem Block.writeDigest_done : b.writeDigest.done = b.done := rfl
@[simp] theorem Block.writeDigest_err : b.writeDigest.err = b.err := rfl
@[simp] theorem Block.writeDigest_dv : b.writeDigest.dv = true := rfl
@[simp] theorem Block.writeDigest_iv : b.writeDigest.iv = b.iv := rfl
@[simp] theorem Block.writeDigest_gv : b.writeDigest.gv = b.gv := rfl
@[simp] theorem Block.writeDigest_sv : b.writeDigest.sv = b.sv := rfl
@[simp] theorem Block.writeDigest_ieDone : b.writeDigest.ieDone = b.ieDone := rfl
@[simp] theorem Block.writeDigest_ieErr : b.writeDigest.ieErr = b.ieErr := rfl
@[simp] theorem Block.writeDigest_errcode : b.writeDigest.errcode = b.errcode := rfl
@[simp] theorem Block.writeDigest_errinfo : b.writeDigest.errinfo = b.errinfo := rfl
@[simp] theorem Block.writeDigest_cur : b.writeDigest.cur = b.cur := rfl
@[simp] theorem Block.writeDigest_msgBytes : b.writeDigest.msgBytes = b.msgBytes := rfl
@[simp] theorem Block.writeDigest_pwdBytes : b.writeDigest.pwdBytes = b.pwdBytes := rfl
@[simp] theorem Block.writeDigest_passBytes : b.writeDigest.passBytes = b.passBytes := rfl
@[simp] theorem Block.writeDigest_entOk : b.writeDigest.entOk = b.entOk := rfl
@[simp] theorem Block.writeDigest_fetchCommand : b.writeDigest.fetchCommand = b.fetchCommand := rfl

/-! `Block.writeIndices` -/

@[simp] theorem Block.writeIndices_msg (n : Nat) (vs : List Index) : (b.writeIndices n vs).msg = b.msg := rfl
@[simp] theorem Block.writeIndices_msgLen (n : Nat) (vs : List Index) : (b.writeIndices n vs).msgLen = b.msgLen := rfl
@[simp] theorem Block.writeIndices_digest (n : Nat) (vs : List Index) : (b.writeIndices n vs).digest = b.digest := rfl
@[simp] theorem Block.writeIndices_idx (n : Nat) (vs : List Index) : (b.writeIndices n vs).idx = fillVector 24 0#11 vs := rfl
@[simp] theorem Block.writeIndices_ngroups (n : Nat) (vs : List Index) : (b.writeIndices n vs).ngroups = BitVec.ofNat 5 n := rfl
@[simp] theorem Block.writeIndices_gsel (n : Nat) (vs : List Index) : (b.writeIndices n vs).gsel = b.gsel := rfl
@[simp] theorem Block.writeIndices_pwd (n : Nat) (vs : List Index) : (b.writeIndices n vs).pwd = b.pwd := rfl
@[simp] theorem Block.writeIndices_pwdLen (n : Nat) (vs : List Index) : (b.writeIndices n vs).pwdLen = b.pwdLen := rfl
@[simp] theorem Block.writeIndices_salt (n : Nat) (vs : List Index) : (b.writeIndices n vs).salt = b.salt := rfl
@[simp] theorem Block.writeIndices_saltLen (n : Nat) (vs : List Index) : (b.writeIndices n vs).saltLen = b.saltLen := rfl
@[simp] theorem Block.writeIndices_seed (n : Nat) (vs : List Index) : (b.writeIndices n vs).seed = b.seed := rfl
@[simp] theorem Block.writeIndices_busy (n : Nat) (vs : List Index) : (b.writeIndices n vs).busy = b.busy := rfl
@[simp] theorem Block.writeIndices_done (n : Nat) (vs : List Index) : (b.writeIndices n vs).done = b.done := rfl
@[simp] theorem Block.writeIndices_err (n : Nat) (vs : List Index) : (b.writeIndices n vs).err = b.err := rfl
@[simp] theorem Block.writeIndices_dv (n : Nat) (vs : List Index) : (b.writeIndices n vs).dv = b.dv := rfl
@[simp] theorem Block.writeIndices_iv (n : Nat) (vs : List Index) : (b.writeIndices n vs).iv = true := rfl
@[simp] theorem Block.writeIndices_gv (n : Nat) (vs : List Index) : (b.writeIndices n vs).gv = b.gv := rfl
@[simp] theorem Block.writeIndices_sv (n : Nat) (vs : List Index) : (b.writeIndices n vs).sv = b.sv := rfl
@[simp] theorem Block.writeIndices_ieDone (n : Nat) (vs : List Index) : (b.writeIndices n vs).ieDone = b.ieDone := rfl
@[simp] theorem Block.writeIndices_ieErr (n : Nat) (vs : List Index) : (b.writeIndices n vs).ieErr = b.ieErr := rfl
@[simp] theorem Block.writeIndices_errcode (n : Nat) (vs : List Index) : (b.writeIndices n vs).errcode = b.errcode := rfl
@[simp] theorem Block.writeIndices_errinfo (n : Nat) (vs : List Index) : (b.writeIndices n vs).errinfo = b.errinfo := rfl
@[simp] theorem Block.writeIndices_cur (n : Nat) (vs : List Index) : (b.writeIndices n vs).cur = b.cur := rfl
@[simp] theorem Block.writeIndices_msgBytes (n : Nat) (vs : List Index) : (b.writeIndices n vs).msgBytes = b.msgBytes := rfl
@[simp] theorem Block.writeIndices_pwdBytes (n : Nat) (vs : List Index) : (b.writeIndices n vs).pwdBytes = b.pwdBytes := rfl
@[simp] theorem Block.writeIndices_passBytes (n : Nat) (vs : List Index) : (b.writeIndices n vs).passBytes = b.passBytes := rfl
@[simp] theorem Block.writeIndices_concatBuffer (n : Nat) (vs : List Index) : (b.writeIndices n vs).concatBuffer = b.concatBuffer := rfl
@[simp] theorem Block.writeIndices_entOk (n : Nat) (vs : List Index) : (b.writeIndices n vs).entOk = b.entOk := rfl
@[simp] theorem Block.writeIndices_fetchCommand (n : Nat) (vs : List Index) : (b.writeIndices n vs).fetchCommand = b.fetchCommand := rfl

/-! `Block.writeGroupSelect` -/

@[simp] theorem Block.writeGroupSelect_msg (v : Index) : (b.writeGroupSelect v).msg = b.msg := rfl
@[simp] theorem Block.writeGroupSelect_msgLen (v : Index) : (b.writeGroupSelect v).msgLen = b.msgLen := rfl
@[simp] theorem Block.writeGroupSelect_digest (v : Index) : (b.writeGroupSelect v).digest = b.digest := rfl
@[simp] theorem Block.writeGroupSelect_idx (v : Index) : (b.writeGroupSelect v).idx = b.idx := rfl
@[simp] theorem Block.writeGroupSelect_ngroups (v : Index) : (b.writeGroupSelect v).ngroups = b.ngroups := rfl
@[simp] theorem Block.writeGroupSelect_gsel (v : Index) : (b.writeGroupSelect v).gsel = v := rfl
@[simp] theorem Block.writeGroupSelect_pwd (v : Index) : (b.writeGroupSelect v).pwd = b.pwd := rfl
@[simp] theorem Block.writeGroupSelect_pwdLen (v : Index) : (b.writeGroupSelect v).pwdLen = b.pwdLen := rfl
@[simp] theorem Block.writeGroupSelect_salt (v : Index) : (b.writeGroupSelect v).salt = b.salt := rfl
@[simp] theorem Block.writeGroupSelect_saltLen (v : Index) : (b.writeGroupSelect v).saltLen = b.saltLen := rfl
@[simp] theorem Block.writeGroupSelect_seed (v : Index) : (b.writeGroupSelect v).seed = b.seed := rfl
@[simp] theorem Block.writeGroupSelect_busy (v : Index) : (b.writeGroupSelect v).busy = b.busy := rfl
@[simp] theorem Block.writeGroupSelect_done (v : Index) : (b.writeGroupSelect v).done = b.done := rfl
@[simp] theorem Block.writeGroupSelect_err (v : Index) : (b.writeGroupSelect v).err = b.err := rfl
@[simp] theorem Block.writeGroupSelect_dv (v : Index) : (b.writeGroupSelect v).dv = b.dv := rfl
@[simp] theorem Block.writeGroupSelect_iv (v : Index) : (b.writeGroupSelect v).iv = b.iv := rfl
@[simp] theorem Block.writeGroupSelect_gv (v : Index) : (b.writeGroupSelect v).gv = true := rfl
@[simp] theorem Block.writeGroupSelect_sv (v : Index) : (b.writeGroupSelect v).sv = b.sv := rfl
@[simp] theorem Block.writeGroupSelect_ieDone (v : Index) : (b.writeGroupSelect v).ieDone = b.ieDone := rfl
@[simp] theorem Block.writeGroupSelect_ieErr (v : Index) : (b.writeGroupSelect v).ieErr = b.ieErr := rfl
@[simp] theorem Block.writeGroupSelect_errcode (v : Index) : (b.writeGroupSelect v).errcode = b.errcode := rfl
@[simp] theorem Block.writeGroupSelect_errinfo (v : Index) : (b.writeGroupSelect v).errinfo = b.errinfo := rfl
@[simp] theorem Block.writeGroupSelect_cur (v : Index) : (b.writeGroupSelect v).cur = b.cur := rfl
@[simp] theorem Block.writeGroupSelect_msgBytes (v : Index) : (b.writeGroupSelect v).msgBytes = b.msgBytes := rfl
@[simp] theorem Block.writeGroupSelect_pwdBytes (v : Index) : (b.writeGroupSelect v).pwdBytes = b.pwdBytes := rfl
@[simp] theorem Block.writeGroupSelect_passBytes (v : Index) : (b.writeGroupSelect v).passBytes = b.passBytes := rfl
@[simp] theorem Block.writeGroupSelect_concatBuffer (v : Index) : (b.writeGroupSelect v).concatBuffer = b.concatBuffer := rfl
@[simp] theorem Block.writeGroupSelect_entOk (v : Index) : (b.writeGroupSelect v).entOk = b.entOk := rfl
@[simp] theorem Block.writeGroupSelect_fetchCommand (v : Index) : (b.writeGroupSelect v).fetchCommand = b.fetchCommand := rfl

/-! `Block.writeSeed` -/

@[simp] theorem Block.writeSeed_msg : b.writeSeed.msg = b.msg := rfl
@[simp] theorem Block.writeSeed_msgLen : b.writeSeed.msgLen = b.msgLen := rfl
@[simp] theorem Block.writeSeed_digest : b.writeSeed.digest = b.digest := rfl
@[simp] theorem Block.writeSeed_idx : b.writeSeed.idx = b.idx := rfl
@[simp] theorem Block.writeSeed_ngroups : b.writeSeed.ngroups = b.ngroups := rfl
@[simp] theorem Block.writeSeed_gsel : b.writeSeed.gsel = b.gsel := rfl
@[simp] theorem Block.writeSeed_pwd : b.writeSeed.pwd = b.pwd := rfl
@[simp] theorem Block.writeSeed_pwdLen : b.writeSeed.pwdLen = b.pwdLen := rfl
@[simp] theorem Block.writeSeed_salt : b.writeSeed.salt = b.salt := rfl
@[simp] theorem Block.writeSeed_saltLen : b.writeSeed.saltLen = b.saltLen := rfl
@[simp] theorem Block.writeSeed_seed : b.writeSeed.seed = fillVector 16 0#32 (words32 (kdf b.pwdBytes b.passBytes)) := rfl
@[simp] theorem Block.writeSeed_busy : b.writeSeed.busy = b.busy := rfl
@[simp] theorem Block.writeSeed_done : b.writeSeed.done = b.done := rfl
@[simp] theorem Block.writeSeed_err : b.writeSeed.err = b.err := rfl
@[simp] theorem Block.writeSeed_dv : b.writeSeed.dv = b.dv := rfl
@[simp] theorem Block.writeSeed_iv : b.writeSeed.iv = b.iv := rfl
@[simp] theorem Block.writeSeed_gv : b.writeSeed.gv = b.gv := rfl
@[simp] theorem Block.writeSeed_sv : b.writeSeed.sv = true := rfl
@[simp] theorem Block.writeSeed_ieDone : b.writeSeed.ieDone = b.ieDone := rfl
@[simp] theorem Block.writeSeed_ieErr : b.writeSeed.ieErr = b.ieErr := rfl
@[simp] theorem Block.writeSeed_errcode : b.writeSeed.errcode = b.errcode := rfl
@[simp] theorem Block.writeSeed_errinfo : b.writeSeed.errinfo = b.errinfo := rfl
@[simp] theorem Block.writeSeed_cur : b.writeSeed.cur = b.cur := rfl
@[simp] theorem Block.writeSeed_msgBytes : b.writeSeed.msgBytes = b.msgBytes := rfl
@[simp] theorem Block.writeSeed_pwdBytes : b.writeSeed.pwdBytes = b.pwdBytes := rfl
@[simp] theorem Block.writeSeed_passBytes : b.writeSeed.passBytes = b.passBytes := rfl
@[simp] theorem Block.writeSeed_concatBuffer : b.writeSeed.concatBuffer = b.concatBuffer := rfl
@[simp] theorem Block.writeSeed_entOk : b.writeSeed.entOk = b.entOk := rfl
@[simp] theorem Block.writeSeed_fetchCommand : b.writeSeed.fetchCommand = b.fetchCommand := rfl

end Sys2Proof.Machine
end

