-- ==== Sys2Proof/Laws/Port.lean ====
section
/-! SUPPORT. What the host port's operations can do (spec/20_memory.md R63 to R81): one inversion lemma
for a register write, one for a host write, one for a read. -/

namespace Sys2Proof.Machine

/-- R70: an accepted register write is one of these, and nothing else. -/
theorem writeReg_ok {b b' : Block} {r : Reg} {v : Word} (h : writeReg b r v = .ok b') :
    (r = .status ∧ b' = writeStatus b v) ∨ (r = .ctrl ∧ b' = writeCtrl b v) ∨
    (r = .cmd ∧ b.busy = false ∧ b.err = false ∧ b' = issue b v) ∨
    (r = .msgLen ∧ b.busy = false ∧ v.toNat ≤ Config.msgCap ∧
      b' = { b with msgLen := v.setWidth 6 }.invalM) ∨
    (r = .pwdLen ∧ b.busy = false ∧ v.toNat ≤ Config.pwdCap ∧
      b' = { b with pwdLen := v.setWidth 11 }.invalK) ∨
    (r = .saltLen ∧ b.busy = false ∧ v.toNat ≤ Config.saltCap ∧
      b' = { b with saltLen := v.setWidth 9 }.invalK) ∨
    (∃ j : Fin 8, r = .msg j ∧ b.busy = false ∧ b' = { b with msg := b.msg.set j.val v }.invalM) ∨
    (∃ j : Fin 64, r = .salt j ∧ b.busy = false ∧
      b' = { b with salt := b.salt.set j.val v }.invalK) ∨
    (∃ j : Fin 256, r = .pwd j ∧ b.busy = false ∧
      b' = { b with pwd := b.pwd.set j.val v }.invalK) := by
  cases r <;> cases hb : b.busy <;> cases he : b.err <;>
    simp_all [writeReg] <;> split at h <;> simp_all

/-- R70: an accepted host write has the legal shape and writes a register that may be written. -/
theorem memWrite_ok {b b' : Block} {off : Offset} {size : Nat} {v : Word}
    (h : memWrite b off size v = .ok b') :
    size = 4 ∧ off.toNat % 4 = 0 ∧
      ∃ r, regAt off = some r ∧ r.readOnly = false ∧ writeReg b r v = .ok b' := by
  unfold memWrite at h
  split at h
  · cases h
  · rename_i hs
    split at h
    · cases h
    · rename_i r hr
      split at h
      · cases h
      · rename_i ho
        simp [legalShape] at hs
        exact ⟨hs.1, hs.2, r, hr, by simpa using ho, h⟩

/-- R64: an answered read has the legal shape and gives the value of the register there. -/
theorem memRead_ok {b : Block} {off : Offset} {size : Nat} {v : Word}
    (h : memRead b off size = .ok v) :
    size = 4 ∧ off.toNat % 4 = 0 ∧ ∃ r, regAt off = some r ∧ v = b.regValue r := by
  unfold memRead at h
  split at h
  · cases h
  · rename_i hs
    split at h
    · cases h
    · rename_i r hr
      cases h
      simp [legalShape] at hs
      exact ⟨hs.1, hs.2, r, hr, rfl⟩

/-- R64: a 4-byte read of the register at an aligned offset. -/
theorem memRead_of_regAt {b : Block} {off : Offset} {r : Reg} (ha : off.toNat % 4 = 0)
    (hr : regAt off = some r) : memRead b off 4 = .ok (b.regValue r) := by
  simp [memRead, legalShape, ha, hr]

/-- R211, R73: a host write either is accepted and leaves what `memWrite` says, or is an access fault
that leaves the block unchanged. -/
theorem hostWrite_cases (off : Offset) (size : Nat) (v : Word) (s : State) :
    (∃ b, memWrite s.block off size v = .ok b ∧
      hostWrite off size v s = { s with block := b, responses := .writeOk :: s.responses }) ∨
    (∃ c, memWrite s.block off size v = .error c ∧
      hostWrite off size v s = { s with responses := .accessFault off :: s.responses }) := by
  unfold hostWrite
  split
  · rename_i b hb; exact .inl ⟨b, hb, rfl⟩
  · rename_i c hc; exact .inr ⟨c, hc, rfl⟩

@[simp] theorem hostRead_block (off : Offset) (size : Nat) (s : State) :
    (hostRead off size s).block = s.block := rfl

@[simp] theorem hostRead_pending (off : Offset) (size : Nat) (s : State) :
    (hostRead off size s).pending = s.pending := rfl

@[simp] theorem hostWrite_pending (off : Offset) (size : Nat) (v : Word) (s : State) :
    (hostWrite off size v s).pending = s.pending := by
  unfold hostWrite; split <;> rfl

/-- R94: issue is acceptance of a word that decodes, or the fault of one that does not. -/
theorem issue_cases (b : Block) (w : Word) :
    (∃ i, decode w = .ok i ∧ issue b w = accept b w i) ∨
    ((∀ i, decode w ≠ .ok i) ∧ issue b w = b.raiseFault .illegalCmd w) := by
  unfold issue
  cases h : decode w with
  | ok i => exact .inl ⟨i, rfl, rfl⟩
  | error e => exact .inr ⟨by simp, rfl⟩

/-- R24: the write-one-to-clear, field by field at once. -/
theorem writeStatus_eq (b : Block) (v : Word) :
    writeStatus b v = { b with
      done := b.done && !v.getLsbD 1
      err := b.err && !v.getLsbD 2
      errcode := if v.getLsbD 2 then 0#8 else b.errcode
      errinfo := if v.getLsbD 2 then 0#32 else b.errinfo } := by
  cases b
  unfold writeStatus Block.ackDone Block.ackFault
  cases v.getLsbD 1 <;> cases v.getLsbD 2 <;> simp

end Sys2Proof.Machine
end

