-- ==== Sys2Proof/Laws/Step.lean ====
section
/-! SUPPORT. What a completion and a step can do, said once (spec/30_encoding.md R97, spec/00_scope.md R15). -/

namespace Sys2Proof.Machine

/-- R97: the `Exec` procedure a command's completion runs. -/
def procOf : Instr → Block → ExecResult
  | .nop => procNop
  | .hash => procHash
  | .groups => procGroups
  | .group k => procGroup k
  | .encode => procEncode
  | .seed => procSeed
  | .clr => procClr

/-- R97: every command's meaning is the completion of its procedure, and it answers a next state. -/
theorem exec_eq (i : Instr) (s : State) :
    exec i s = .next { s with block := completeWith s.block (procOf i s.block) } := by
  cases i <;> rfl

@[simp] theorem completeWith_ok (b b' : Block) : completeWith b (.ok b') = b'.finish := rfl

@[simp] theorem completeWith_fault (b : Block) (f : CmdFault) (info : Word) :
    completeWith b (.fault f info) = (b.raiseFault f info).finish := rfl

/-- What a procedure answers: the fault of a group command, or a block that keeps `CUR`, `CTRL` and
the fault registers (R97, R214). -/
theorem procOf_cases (i : Instr) (b : Block) :
    (∃ b', procOf i b = .ok b' ∧ b'.cur = b.cur ∧ b'.ieDone = b.ieDone ∧ b'.ieErr = b.ieErr ∧
      b'.err = b.err ∧ b'.errcode = b.errcode ∧ b'.errinfo = b.errinfo) ∨
    (∃ f info, procOf i b = .fault f info ∧ (f = .noDigest ∨ f = .bitRead) ∧
      (i = .groups ∨ ∃ k, i = .group k)) := by
  cases i with
  | nop => exact .inl ⟨_, rfl, rfl, rfl, rfl, rfl, rfl, rfl⟩
  | hash => exact .inl ⟨_, rfl, rfl, rfl, rfl, rfl, rfl, rfl⟩
  | groups =>
    cases hd : b.dv with
    | false => exact .inr ⟨_, _, procGroups_noDigest b hd, .inl rfl, .inl rfl⟩
    | true =>
      obtain ⟨vs, h, -, -⟩ := procGroups_ok b hd
      exact .inl ⟨_, h, rfl, rfl, rfl, rfl, rfl, rfl⟩
  | group k =>
    rcases procGroup_cases k b with ⟨-, h⟩ | ⟨-, -, h⟩ | ⟨-, -, v, -, h⟩
    · exact .inr ⟨_, _, h, .inl rfl, .inr ⟨k, rfl⟩⟩
    · exact .inr ⟨_, _, h, .inr rfl, .inr ⟨k, rfl⟩⟩
    · exact .inl ⟨_, h, rfl, rfl, rfl, rfl, rfl, rfl⟩
  | encode =>
    obtain ⟨vs, h, -, -⟩ := procEncode_ok b
    exact .inl ⟨_, h, rfl, rfl, rfl, rfl, rfl, rfl⟩
  | seed => exact .inl ⟨_, rfl, rfl, rfl, rfl, rfl, rfl, rfl⟩
  | clr => exact .inl ⟨_, rfl, rfl, rfl, rfl, rfl, rfl, rfl⟩

/-- What one step of the machine is, in its five cases: a read, a write, a reset, a completion, or an
idle turn (R15, R74). -/
theorem step_cases (s : State) :
    (∃ off size rest, s.pending = .read off size :: rest ∧
      step s = .next (hostRead off size { s with pending := rest })) ∨
    (∃ off size v rest, s.pending = .write off size v :: rest ∧
      step s = .next (hostWrite off size v { s with pending := rest })) ∨
    (∃ rest, s.pending = .reset :: rest ∧
      step s = .next (resetStep { s with pending := rest })) ∨
    (∃ rest, (s.pending = .engine :: rest ∨ (s.pending = [] ∧ rest = [])) ∧
      s.block.busy = true ∧ step s = engineStep { s with pending := rest }) ∨
    (∃ rest, (s.pending = .engine :: rest ∨ (s.pending = [] ∧ rest = [])) ∧
      s.block.busy = false ∧ step s = .next { s with pending := rest }) := by
  cases s with
  | mk b p r =>
    match p with
    | [] =>
      cases hb : b.busy with
      | true =>
        exact .inr (.inr (.inr (.inl ⟨[], .inr ⟨rfl, rfl⟩, rfl, by simp [step, engineTurn, hb]⟩)))
      | false =>
        exact .inr (.inr (.inr (.inr ⟨[], .inr ⟨rfl, rfl⟩, rfl, by simp [step, engineTurn, hb]⟩)))
    | .read off size :: rest => exact .inl ⟨off, size, rest, rfl, rfl⟩
    | .write off size v :: rest => exact .inr (.inl ⟨off, size, v, rest, rfl, rfl⟩)
    | .reset :: rest => exact .inr (.inr (.inl ⟨rest, rfl, rfl⟩))
    | .engine :: rest =>
      cases hb : b.busy with
      | true =>
        exact .inr (.inr (.inr (.inl ⟨rest, .inl rfl, rfl, by simp [step, engineTurn, hb]⟩)))
      | false =>
        exact .inr (.inr (.inr (.inr ⟨rest, .inl rfl, rfl, by simp [step, engineTurn, hb]⟩)))

/-- The engine's step is the completion of the command in `CUR`, or the stop of an illegal word (R97). -/
theorem engineStep_cases (s : State) :
    (∃ i, decode s.block.cur = .ok i ∧
      engineStep s = .next { s with block := completeWith s.block (procOf i s.block) }) ∨
    ((∀ i, decode s.block.cur ≠ .ok i) ∧ engineStep s = .fault (.curNotLegal s.block.cur)) := by
  unfold engineStep Block.fetchCommand
  cases h : decode s.block.cur with
  | ok i => exact .inl ⟨i, rfl, exec_eq i s⟩
  | error e => exact .inr ⟨by simp, rfl⟩

end Sys2Proof.Machine
end

