-- ==== Sys2Proof/Laws/Run.lean ====
section
/-! SUPPORT. How runs of several steps unfold, and what a step is when the next event is a host access
(Host/Core.lean; spec/20_memory.md R64, R70, R211). -/

namespace Sys2Proof.Machine

@[simp] theorem runSteps_zero (s : State) : runSteps 0 s = .next s := rfl

/-- One more step in front, when it answers a next state. -/
theorem runSteps_succ (n : Nat) {s t : State} (h : step s = .next t) :
    runSteps (n + 1) s = runSteps n t := by
  have h : Sys2Proof.core.step s = .next t := h
  simp only [runSteps, Host.Core.run, h]
  rfl

@[simp] theorem withNext_block (s : State) (e : Event) : (s.withNext e).block = s.block := rfl

@[simp] theorem answered_block (s : State) (b : Block) (r : Response) :
    (s.answered b r).block = b := rfl

@[simp] theorem answered_pending (s : State) (b : Block) (r : Response) :
    (s.answered b r).pending = s.pending := rfl

/-- R73: an accepted host write. -/
theorem step_write_ok {s : State} {off : Offset} {size : Nat} {v : Word} {b : Block}
    (h : memWrite s.block off size v = .ok b) :
    step (s.withNext (.write off size v)) = .next (s.answered b .writeOk) := by
  change Host.Outcome.next (hostWrite off size v s) = _
  simp [hostWrite, h, State.answered]

/-- R211: a refused host write. -/
theorem step_write_error {s : State} {off : Offset} {size : Nat} {v : Word} {c : AccessCause}
    (h : memWrite s.block off size v = .error c) :
    step (s.withNext (.write off size v)) =
      .next (s.answered s.block (.accessFault off)) := by
  change Host.Outcome.next (hostWrite off size v s) = _
  simp [hostWrite, h, State.answered]

/-- R64: an answered host read. -/
theorem step_read_ok {s : State} {off : Offset} {size : Nat} {v : Word}
    (h : memRead s.block off size = .ok v) :
    step (s.withNext (.read off size)) = .next (s.answered s.block (.readOk v)) := by
  change Host.Outcome.next (hostRead off size s) = _
  simp [hostRead, readResponse, h, State.answered]

/-- R211: a refused host read. -/
theorem step_read_error {s : State} {off : Offset} {size : Nat} {c : AccessCause}
    (h : memRead s.block off size = .error c) :
    step (s.withNext (.read off size)) = .next (s.answered s.block (.accessFault off)) := by
  change Host.Outcome.next (hostRead off size s) = _
  simp [hostRead, readResponse, h, State.answered]

end Sys2Proof.Machine
end

