-- ==== Sys2Proof/Tests/Slice0.lean ====
section
/-! SUPPORT. Tests on fixed values, their expected results taken from the spec (the ids `T-…` and `V…` are
spec/95_test_vectors.md), and a witness for the hypotheses of every obligation that has some. -/

namespace Sys2Proof.Tests

open Sys2Proof Sys2Proof.Machine

/-! ### Helpers -/

/-- A machine with this block and nothing pending. -/
def idle (b : Block) : State := { State.reset with block := b }

/-- The block after reset with the word `w` in execution. -/
def running (w : Word) : Block := { Block.reset with cur := w, busy := true }

/-- What a step leaves of the block, if it answers a next state. -/
def blockAfter : Host.Outcome State Fault Refusal → Option Block
  | .next s => some s.block
  | .fault _ => none
  | .refused _ => none

/-- The newest answer of the port after a step. -/
def answerAfter : Host.Outcome State Fault Refusal → Option Response
  | .next s => s.responses.head?
  | .fault _ => none
  | .refused _ => none

/-- Did a step end in a fault? -/
def faultOf : Host.Outcome State Fault Refusal → Option Fault
  | .fault f => some f
  | .next _ => none
  | .refused _ => none

/-- One host access on a machine with the block `b`. -/
def access (b : Block) (e : Event) : Host.Outcome State Fault Refusal := step ((idle b).withNext e)

/-- The block of T-H4: the message "abc". -/
def abc : Block := { Block.reset with msg := Block.reset.msg.set 0 0x61626300#32, msgLen := 3#6 }

/-- The block of T-G15: 32 bytes 0xFF and the first words of their digest (T-H3). -/
def onesHashed : Block :=
  { Block.reset with
    msg := Vector.replicate 8 0xFFFFFFFF#32, msgLen := 32#6
    digest := Block.reset.digest.set 0 0xAF961376#32, dv := true }

/-- The block of V1 after `HASH`: sixteen zero bytes. -/
def zerosHashed : Block :=
  { Block.reset with
    msgLen := 16#6, digest := Block.reset.digest.set 0 0x374708FF#32, dv := true }

/-- A block with a pending command fault. -/
def faulted : Block := { Block.reset with err := true, errcode := 1#8, errinfo := 7#32 }

/-! ### Well-formedness: each check refuses an ill-formed term -/

theorem test_wf_group_operand_too_large : (Instr.group 256).wf = false := by decide

theorem test_wf_group_operand_largest : (Instr.group 255).wf = true := by decide

theorem test_wf_line_command : (HostLine.cmd (.group 256)).wf = false := by decide

theorem test_wf_line_message_too_long : (HostLine.ldmsg (zeros 33)).wf = false := by decide

theorem test_wf_line_password_too_long : (HostLine.ldpwd (zeros 1025)).wf = false := by
  decide +kernel

theorem test_wf_line_passphrase_too_long : (HostLine.ldsalt (zeros 257)).wf = false := by
  decide +kernel

/-! ### Decoding: words written out from R91 and R104, `rsv`, `k` and `op` side by side -/

theorem test_decode_nop : decode 0b00000000000000000000000000000000#32 = .ok .nop := by decide

theorem test_decode_hash : decode 0b00000000000000000000000000000001#32 = .ok .hash := by decide

theorem test_decode_groups : decode 0b00000000000000000000000000000010#32 = .ok .groups := by decide

theorem test_decode_group : decode 0b00000000000000000000101100000011#32 = .ok (.group 11) := by
  decide

theorem test_decode_encode : decode 0b00000000000000000000000000000100#32 = .ok .encode := by decide

theorem test_decode_seed : decode 0b00000000000000000000000000000101#32 = .ok .seed := by decide

theorem test_decode_clr : decode 0b00000000000000000000000000000110#32 = .ok .clr := by decide

/-- T-C3, T-C5, T-C7, T-C9: one word for each way of R99 and a boundary. -/
theorem test_decode_refuses :
    decode 0x00010001#32 = .error .reservedBitsSet ∧
    decode 0x00000102#32 = .error .operandNotZero ∧
    decode 0x000000FF#32 = .error .opcodeUnassigned ∧
    decode 0x00010003#32 = .error .reservedBitsSet ∧
    decode 0x80000000#32 = .error .reservedBitsSet := by decide

/-- R102: `cmd GROUP 11` is the data word 00000B03. -/
theorem test_encode_group : encode (.group 11) = 0x00000B03#32 := by decide

theorem test_decodeTableWord :
    decodeTableWord 32 0x00000B03 = some (.group 11) ∧ decodeTableWord 8 0x05 = some .seed ∧
    decodeTableWord 32 0x00000103 = some (.group 1) ∧ decodeTableWord 32 0x07 = none ∧
    decodeTableWord 40 0x100000001 = none := by decide

/-- The word placed by `withFetchWord` is the one the next step runs, also with events pending. -/
theorem test_withFetchWord :
    step (State.reset.withFetchWord 32 0x00001703) =
      exec (.group 23) (State.reset.withFetchWord 32 0x00001703) ∧
    step (State.withFetchWord { State.reset with pending := [.reset] } 32 0x05) =
      exec .seed { State.reset with block := running 5#32, pending := [.reset] } :=
  ⟨rfl, rfl⟩

/-! ### The commands -/

/-- T-C1: after `NOP`, `STATUS` is 00000002. -/
theorem test_nop_status :
    (blockAfter (exec .nop (idle (running 0#32)))).map Block.statusWord = some 0x00000002#32 := by
  decide

/-- T-H4: the digest of "abc". -/
theorem test_hash_abc :
    (blockAfter (exec .hash (idle abc))).map (fun b => (b.digest.toList, b.statusWord)) =
      some ([0xba7816bf#32, 0x8f01cfea#32, 0x414140de#32, 0x5dae2223#32,
             0xb00361a3#32, 0x96177a9c#32, 0xb410ff61#32, 0xf20015ad#32], 0x0000000A#32) := by
  decide +kernel

/-- T-H15: bytes beyond the length are not hashed. -/
theorem test_hash_ignores_leftover_bytes :
    ({ abc with msg := abc.msg.set 0 0x616263FF#32 } : Block).msgBytes = abc.msgBytes := by decide

/-- V1: the groups of sixteen zero bytes and 0x37. -/
theorem test_groups_zeros :
    (blockAfter (exec .groups (idle zerosHashed))).map
        (fun b => (b.idx.toList.take 13, b.ngroups, b.iv)) =
      some ([0#11, 0#11, 0#11, 0#11, 0#11, 0#11, 0#11, 0#11, 0#11, 0#11, 0#11, 3#11, 0#11],
        12#5, true) := by
  decide +kernel

/-- T-G22: `GROUPS` without a digest. -/
theorem test_groups_without_digest :
    (blockAfter (exec .groups (idle
        { running 2#32 with msg := Vector.replicate 8 0xFFFFFFFF#32, msgLen := 32#6 }))).map
        (fun b => (b.errcode, b.errinfo, b.statusWord)) =
      some (2#8, 0x00000002#32, 0x00000086#32) := by decide +kernel

/-- T-G6: group 23 of 32 bytes 0xFF and 0xAF. -/
theorem test_group_23 :
    (blockAfter (exec (.group 23) (idle onesHashed))).map (fun b => (b.gsel, b.statusWord)) =
      some (0x7AF#11, 0x000000AA#32) := by decide +kernel

/-- T-G17: group 255 does not exist. -/
theorem test_group_255 :
    (blockAfter (exec (.group 255) (idle onesHashed))).map
        (fun b => (b.gsel, b.statusWord, b.errcode, b.errinfo)) =
      some (0#11, 0x0000008E#32, 3#8, 0x000000FF#32) := by decide +kernel

/-- T-G12: `ENCODE` of "abc". -/
theorem test_encode_abc :
    (blockAfter (exec .encode (idle abc))).map
        (fun b => (b.idx.toList.take 3, b.ngroups, b.statusWord)) =
      some ([0x30B#11, 0x098#11, 0#11], 2#5, 0x0000001A#32) := by decide +kernel

/-- R191, T-K13: after `SEED`, `STATUS` is 00000042. -/
theorem test_seed_status :
    (blockAfter (exec .seed (idle (running 5#32)))).map Block.statusWord =
      some 0x00000042#32 := by rfl

/-- V2: the first two iterations, `U_1 xor U_2`, of the document's seed (2048 are too many for a kernel
evaluation). -/
theorem test_seed_first_iterations :
    intOf (pbkdf2Block
        (hmac512 ((List.replicate 11 [0x61#8, 0x62#8, 0x61#8, 0x6E#8, 0x64#8, 0x6F#8, 0x6E#8,
          0x20#8]).flatten ++ [0x61#8, 0x62#8, 0x6F#8, 0x75#8, 0x74#8]))
        (kdfSalt [0x54#8, 0x52#8, 0x45#8, 0x5A#8, 0x4F#8, 0x52#8]) 2 1) =
      0x26e4e49e46a981e9e071c026b197ef992573f6909ec510cd2e6c1a90af5ea5315b3992bee8887f6b504ec1526e8445a6f28198ce5df3aff6d14c0b29fe770a80 := by
  decide +kernel

/-- R201: `CLR` zeroes the data; `STATUS` is 00000002 and `CUR`, `CTRL` stay. -/
theorem test_clr :
    (blockAfter (exec .clr (idle { onesHashed with cur := 6#32, busy := true, ieErr := true }))).map
        (fun b => (b.msg.toList, b.msgLen, b.statusWord, b.cur, b.ctrlWord)) =
      some (List.replicate 8 0#32, 0#6, 0x00000002#32, 6#32, 2#32) := by decide +kernel

/-! ### The port -/

/-- T-C2: an illegal word. -/
theorem test_illegal_word :
    (blockAfter (access Block.reset (.write 0x000#12 4 0x00000007#32))).map
        (fun b => (b.statusWord, b.errcode, b.errinfo, b.cur)) =
      some (0x00000004#32, 1#8, 7#32, 0#32) := by decide

/-- T-C8: acceptance of `GROUP 255`. -/
theorem test_acceptance :
    (blockAfter (access Block.reset (.write 0x000#12 4 0x0000FF03#32))).map
        (fun b => (b.statusWord, b.cur)) = some (0x00000001#32, 0x0000FF03#32) := by decide

/-- T-G24: acceptance of `HASH` clears the results; `STATUS` is 00000081. -/
theorem test_acceptance_of_hash :
    (blockAfter (access { zerosHashed with iv := true, ngroups := 12#5 }
        (.write 0x000#12 4 0x00000001#32))).map (fun b => (b.statusWord, b.ngroups)) =
      some (0x00000081#32, 0#5) := by decide

/-- T-M1 to T-M10: refused accesses. -/
theorem test_access_faults :
    answerAfter (access Block.reset (.read 0x040#12 1)) = some (.accessFault 0x040#12) ∧
    answerAfter (access Block.reset (.read 0x042#12 4)) = some (.accessFault 0x042#12) ∧
    answerAfter (access Block.reset (.read 0x3FC#12 4)) = some (.accessFault 0x3FC#12) ∧
    answerAfter (access Block.reset (.write 0x060#12 4 1#32)) = some (.accessFault 0x060#12) ∧
    answerAfter (access Block.reset (.write 0x014#12 4 33#32)) = some (.accessFault 0x014#12) ∧
    answerAfter (access Block.reset (.write 0x014#12 4 32#32)) = some .writeOk ∧
    answerAfter (access Block.reset (.write 0x014#12 4 0x100#32)) =
      some (.accessFault 0x014#12) := by decide

/-- T-M11 to T-M14: the locks. -/
theorem test_locks :
    answerAfter (access (running 0#32) (.write 0x200#12 4 1#32)) = some (.accessFault 0x200#12) ∧
    answerAfter (access (running 0#32) (.write 0x000#12 4 1#32)) = some (.accessFault 0x000#12) ∧
    answerAfter (access (running 0#32) (.write 0x008#12 4 3#32)) = some .writeOk ∧
    answerAfter (access faulted (.write 0x000#12 4 0#32)) = some (.accessFault 0x000#12) ∧
    answerAfter (access faulted (.write 0x040#12 4 0#32)) = some .writeOk := by decide

/-- T-M19, T-M20: a read changes nothing, a write of the same value still invalidates. -/
theorem test_write_invalidates :
    answerAfter (access zerosHashed (.read 0x060#12 4)) = some (.readOk 0x374708FF#32) ∧
    (blockAfter (access zerosHashed (.write 0x040#12 4 0#32))).map
        (fun b => (b.dv, b.digest.toList)) = some (false, List.replicate 8 0#32) := by decide

/-- T-C11, T-M17, T-M18: writes of `STATUS`. -/
theorem test_status_writes :
    (blockAfter (access faulted (.write 0x004#12 4 4#32))).map
        (fun b => (b.statusWord, b.errcode, b.errinfo)) = some (0#32, 0#8, 0#32) ∧
    (blockAfter (access Block.reset (.write 0x004#12 4 0xFFFFFFF9#32))).map Block.statusWord =
      some 0#32 ∧
    (blockAfter (access { zerosHashed with done := true } (.write 0x004#12 4 8#32))).map
        Block.statusWord = some 0x0000008A#32 := by decide

/-- T-M16, T-S3: `CTRL`, and `irq` at once when `ERR` is set. -/
theorem test_ctrl_and_irq :
    (blockAfter (access Block.reset (.write 0x008#12 4 0xFFFFFFFF#32))).map Block.ctrlWord =
      some 3#32 ∧
    (blockAfter (access { Block.reset with ieErr := true } (.write 0x000#12 4 7#32))).map
        Block.irq = some true := by decide

/-- T-S8: reset while busy. -/
theorem test_reset_while_busy :
    blockAfter (access { zerosHashed with cur := 4#32, busy := true } .reset) =
      some Block.reset := by rfl

/-- R102: `ldmsg 0001` is `W 040 00010000`, `W 014 00000002`; `ack` is `W 004 00000006`. -/
theorem test_host_notation :
    encodeProgram [.ldmsg [0x00#8, 0x01#8], .ack, .cmd (.group 11)] =
      ["W 040 00010000".toList, "W 014 00000002".toList, "W 004 00000006".toList,
        "W 000 00000B03".toList] := by decide

/-! ### Witnesses: the hypotheses of each obligation hold together somewhere -/

theorem witness_stepRunsTheDecodedCommand :
    (running 0x00002D03#32).busy = true ∧ decode (running 0x00002D03#32).cur = .ok (.group 45) ∧
      (idle (running 0x00002D03#32)).pending = [] := by decide

theorem witness_stepPerformsTheNextEvent :
    State.reset.block.busy = false ∧ State.reset.pending = [] := by decide

theorem witness_registerMapIsOneToOne :
    regAt 0x7FC#12 = some (.pwd 255) ∧ regAt 0x0DC#12 = some (.idx 23) := by decide

/-- Every range of R64 at its last register, and a reserved offset. -/
theorem witness_readReturnsTheRegister :
    (0x024#12).toNat = 0x024 ∧ (0x05C#12).toNat = 0x040 + 4 * (7 : Fin 8).val ∧
    (0x07C#12).toNat = 0x060 + 4 * (7 : Fin 8).val ∧
    (0x0DC#12).toNat = 0x080 + 4 * (23 : Fin 24).val ∧
    (0x13C#12).toNat = 0x100 + 4 * (15 : Fin 16).val ∧
    (0x2FC#12).toNat = 0x200 + 4 * (63 : Fin 64).val ∧
    (0x7FC#12).toNat = 0x400 + 4 * (255 : Fin 256).val ∧
    reservedOffset 0x028#12 = true ∧ reservedOffset 0xFFC#12 = true ∧
    reservedOffset 0x024#12 = false ∧ reservedOffset 0x040#12 = false := by decide

/-- A block as after reset with any legal word in execution satisfies the invariants. -/
theorem running_inv (w : Word) (h : legalWord w = true) : BlockInv (running w) := by
  constructor <;>
    simp [running, Block.reset, Config.msgCap, Config.pwdCap, Config.saltCap, Config.nidx, h]
  intro i _
  cases i <;> simp [Block.resultsCleared]

/-- One state for each of the commands the clauses of R75 speak of. -/
theorem witness_readsDuringExecution :
    (idle (running 1#32)).Inv ∧ decode (running 1#32).cur = .ok .hash ∧
    (idle (running 4#32)).Inv ∧ decode (running 4#32).cur = .ok .encode ∧
    (idle (running 2#32)).Inv ∧ decode (running 2#32).cur = .ok .groups ∧
    (idle (running 0xFF03#32)).Inv ∧ decode (running 0xFF03#32).cur = .ok (.group 255) ∧
    (idle (running 5#32)).Inv ∧ decode (running 5#32).cur = .ok .seed :=
  ⟨running_inv _ (by decide), rfl, running_inv _ (by decide), rfl, running_inv _ (by decide), rfl,
    running_inv _ (by decide), rfl, running_inv _ (by decide), rfl⟩

theorem witness_wrongSizeOrAlignmentFaults :
    (8 ≠ 4 ∨ (0x040#12).toNat % 4 ≠ 0) ∧ (4 ≠ 4 ∨ (0xFFF#12).toNat % 4 ≠ 0) := by decide

/-- Both ends of each reserved range. -/
theorem witness_reservedOffsetsFault :
    ∀ off ∈ [0x028#12, 0x03C#12, 0x0E0#12, 0x0FC#12, 0x140#12, 0x1FC#12, 0x300#12, 0x3FC#12,
        0x800#12, 0xFFC#12],
      off.toNat % 4 = 0 ∧ ((0x028 ≤ off.toNat ∧ off.toNat ≤ 0x03C) ∨
        (0x0E0 ≤ off.toNat ∧ off.toNat ≤ 0x0FC) ∨ (0x140 ≤ off.toNat ∧ off.toNat ≤ 0x1FC) ∨
        (0x300 ≤ off.toNat ∧ off.toNat ≤ 0x3FC) ∨ (0x800 ≤ off.toNat ∧ off.toNat ≤ 0xFFC)) := by
  decide

theorem witness_readOnlyRegistersRefuseWrites :
    0x024#12 ∈ [0x00C#12, 0x010#12, 0x020#12, 0x024#12] ∧
    (0x07C#12).toNat = 0x060 + 4 * (7 : Fin 8).val ∧
    (0x0DC#12).toNat = 0x080 + 4 * (23 : Fin 24).val ∧
    (0x13C#12).toNat = 0x100 + 4 * (15 : Fin 16).val ∧
    State.reset.block.busy = false ∧ State.reset.block.err = false := by decide

theorem witness_lengthAboveCapacityFaults :
    (33#32).toNat > 32 ∧ (1025#32).toNat > 1024 ∧ (257#32).toNat > 256 := by decide

theorem witness_commandRegisterLock :
    (running 0#32).busy = true ∧ (running 0#32).err = false ∧
      faulted.busy = false ∧ faulted.err = true := by decide

theorem witness_inputLock :
    0x01C#12 ∈ [0x014#12, 0x018#12, 0x01C#12] ∧ (256#32).toNat ≤ 256 ∧
    (0x05C#12).toNat = 0x040 + 4 * (7 : Fin 8).val ∧
    (0x2FC#12).toNat = 0x200 + 4 * (63 : Fin 64).val ∧
    (0x7FC#12).toNat = 0x400 + 4 * (255 : Fin 256).val ∧
    (running 0#32).busy = true ∧ faulted.busy = false := by decide

/-- Each cause AF1 to AF7 at a boundary of its range, writes and reads that no cause hits, and a read
at a reserved offset. -/
theorem witness_accessFaultCausesAreComplete :
    ((8 ≠ 4 ∧ (0x041#12).toNat % 4 ≠ 0) ∧ regAt 0xFFC#12 = none ∧
      (regAt 0x07C#12 = some (.digest 7) ∧ (Reg.digest 7).readOnly = true)) ∧
    ((running 0#32).busy = true ∧ faulted.err = true ∧
      (regAt 0x7FC#12 = some (.pwd 255) ∧ (Reg.pwd 255).isInput = true)) ∧
    ((33#32).toNat > 32 ∧ (1025#32).toNat > 1024 ∧ (257#32).toNat > 256) ∧
    (regAt 0x01C#12 = some .saltLen ∧ Reg.saltLen.readOnly = false ∧
      (256#32).toNat ≤ Config.saltCap ∧ faulted.busy = false) ∧
    (regAt 0x0DC#12 = some (.idx 23) ∧ (0x0DC#12).toNat % 4 = 0 ∧
      answerAfter (access zerosHashed (.read 0x060#12 4)) =
        some (.readOk (zerosHashed.regValue (.digest 0)))) := by decide

theorem witness_messageWriteInvalidates :
    (idle zerosHashed).block.busy = false ∧ (32#32).toNat ≤ 32 := by decide

theorem witness_seedSideWriteInvalidates :
    (idle faulted).block.busy = false ∧ (1024#32).toNat ≤ 1024 ∧ (256#32).toNat ≤ 256 := by decide

theorem witness_bufferWordsReadBack :
    (idle abc).block.busy = false ∧ regAt 0x05C#12 = some (.msg 7) ∧
    regAt 0x2FC#12 = some (.salt 63) ∧ regAt 0x7FC#12 = some (.pwd 255) ∧
    0x014#12 ≠ 0x05C#12 ∧ regAt 0x014#12 = some .msgLen ∧ Reg.msgLen.isInput = true := by decide

theorem witness_acknowledgementReopensCommands :
    (idle faulted).block.busy = false ∧ (4#32).getLsbD 2 = true ∧ decode 6#32 = .ok .clr := by
  decide

theorem witness_legalWordIsAccepted :
    (idle onesHashed).block.busy = false ∧ (idle onesHashed).block.err = false ∧
    decode 0#32 = .ok .nop ∧ decode 1#32 = .ok .hash ∧ decode 2#32 = .ok .groups ∧
    decode 0xFF03#32 = .ok (.group 255) ∧ decode 4#32 = .ok .encode ∧ decode 5#32 = .ok .seed ∧
    decode 6#32 = .ok .clr := by decide

theorem witness_illegalWordIsReported :
    State.reset.block.busy = false ∧ State.reset.block.err = false ∧
    (0x00010003#32).extractLsb' 16 16 ≠ 0#16 ∧ 0x07 ≤ ((7#32).extractLsb' 0 8).toNat ∧
    ((0x0106#32).extractLsb' 0 8 ∈ [0x00#8, 0x01#8, 0x02#8, 0x04#8, 0x05#8, 0x06#8] ∧
      (0x0106#32).extractLsb' 8 8 ≠ 0#8) := by decide

theorem witness_groupsCompletes :
    (idle onesHashed).block.dv = true ∧
    11 * (23 : Fin 24).val + 11 ≤ 8 * ((idle onesHashed).block.msgLen.toNat + 1) ∧
    (idle onesHashed).block.msgLen.toNat ≤ 32 ∧ (idle zerosHashed).block.dv = true ∧
    8 * ((idle zerosHashed).block.msgLen.toNat + 1) < 11 * (12 : Fin 24).val + 11 := by decide

theorem witness_groupCompletes :
    (idle onesHashed).block.dv = true ∧
    11 * 23 + 11 ≤ 8 * ((idle onesHashed).block.msgLen.toNat + 1) := by decide

theorem witness_groupPastTheEndFaults :
    (Instr.group 24).wf = true ∧ (idle onesHashed).block.dv = true ∧
    8 * ((idle onesHashed).block.msgLen.toNat + 1) < 11 * 24 + 11 := by decide

theorem witness_missingDigestFaultsFirst :
    (Instr.groups = .groups ∨ ∃ k, Instr.groups = .group k) ∧
    (Instr.group 255 = .groups ∨ ∃ k, Instr.group 255 = .group k) ∧
    (idle (running 0xFF03#32)).block.dv = false :=
  ⟨.inl rfl, .inr ⟨255, rfl⟩, rfl⟩

theorem witness_groupAgreesWithGroups :
    (idle zerosHashed).block.dv = true ∧ (idle zerosHashed).block.msgLen.toNat ≤ 32 ∧
    11 < groupCount (idle zerosHashed).block.msgLen.toNat ∧
    groupCount (idle zerosHashed).block.msgLen.toNat ≤ 12 := by decide

theorem witness_encodeCompletes :
    (idle abc).block.msgLen.toNat ≤ 32 ∧
    11 * (1 : Fin 24).val + 11 ≤ 8 * ((idle abc).block.msgLen.toNat + 1) ∧
    8 * ((idle abc).block.msgLen.toNat + 1) < 11 * (2 : Fin 24).val + 11 := by decide

theorem witness_encodeIsHashThenGroups :
    (idle abc).block.busy = false ∧ (idle abc).block.err = false := by decide

/-- A completion that raises a fault, with `ERR` clear before. -/
theorem witness_completionIsPrecise :
    (Instr.group 255).wf = true ∧ (idle onesHashed).block.err = false ∧
    (blockAfter (exec (.group 255) (idle onesHashed))).map Block.err = some true := by
  decide +kernel

theorem witness_leftoverBytesAreIgnored :
    abc.agreeBelowLengths { abc with msg := abc.msg.set 0 0x616263FF#32 } :=
  ⟨rfl, by decide, by decide, by decide⟩

/-- Two machines that agree on one side and differ on the other. -/
theorem witness_sidesAreIndependent :
    abc.sameMessageSide { abc with saltLen := 5#9 } ∧ abc.sameSeedSide onesHashed ∧
    Instr.encode ∈ [Instr.hash, .groups, .encode] ∧ ∃ k, Instr.group 45 = .group k :=
  ⟨⟨rfl, rfl, rfl, rfl, rfl, rfl, rfl, rfl, rfl⟩, ⟨rfl, rfl, rfl, rfl, rfl, rfl⟩, by decide,
    45, rfl⟩

/-- Lengths at the boundaries: 55 bytes, and registers with each remainder modulo 4. -/
theorem witness_oneBlockSuffices :
    (zeros 55).length ≤ 55 ∧
    onesHashed.msgLen.toNat ≤ 32 ∧ onesHashed.msgLen.toNat % 4 = 0 ∧
    (8 : Nat) = onesHashed.msgLen.toNat / 4 ∧ ((8 : Fin 16).val = 8 ∧ (7 : Fin 16).val < 8) ∧
    (8 < (14 : Fin 16).val ∧ (14 : Fin 16).val ≤ 14 ∧ (15 : Fin 16).val = 15) ∧
    (29#6).toNat % 4 = 1 ∧ (30#6).toNat % 4 = 2 ∧ abc.msgLen.toNat % 4 = 3 := by decide

theorem witness_scheduleRecurrence :
    (List.replicate 16 0#32).length = 16 ∧ (List.replicate 16 0#64).length = 16 ∧
    (16 ≤ 16 ∧ 16 < 64) ∧ (16 ≤ 63 ∧ 63 < 64) ∧ (16 ≤ 79 ∧ 79 < 80) := by decide

theorem witness_groupIsAFieldOfTheBuffer :
    11 * 23 + 11 ≤ bitlen (zeros 33) ∧ bitlen (zeros 33) < 11 * 24 + 11 ∧
    (zeros 33).length = 32 + 1 := by decide

/-- Sixteen bytes consume four bits of the digest byte; 0x37 and 0x38 agree on them. -/
theorem witness_trailingBitsAreNeverRead :
    (0x37#8) >>> (8 - checksumBitsConsumed (zeros 16).length) =
      (0x38#8) >>> (8 - checksumBitsConsumed (zeros 16).length) ∧
    11 < groupCount (zeros 16).length := by decide

theorem witness_multiplexerAsWiring :
    (zeros 32).length + 1 + ([] : List Byte).length = 33 ∧ 23 < groupCount (zeros 32).length ∧
    (zeros 16).length + 1 + (zeros 16).length = 33 ∧ 11 < groupCount (zeros 16).length := by decide

theorem witness_resetFromAnyState : decode 0xFF03#32 = .ok (.group 255) := by decide

theorem witness_interruptLine :
    ({ Block.reset with ieDone := true } : Block).ieDone = true ∧ Block.reset.dv = false ∧
    (Instr.groups = .groups ∨ ∃ k, Instr.groups = .group k) ∧ onesHashed.dv = true ∧
    ∃ k, Instr.group 24 = .group k ∧ 8 * (onesHashed.msgLen.toNat + 1) < 11 * k + 11 :=
  ⟨rfl, rfl, .inl rfl, rfl, 24, rfl, by decide⟩

/-- A state in the middle of a command, and the state its completion gives. -/
theorem witness_everyStepKeepsTheInvariants :
    (idle (running 6#32)).Inv ∧
    ∃ t, step (idle (running 6#32)) = .next t ∧ t.block.done = true :=
  ⟨running_inv _ (by decide), _, rfl, rfl⟩

theorem witness_invariantStatesNeverStop : (idle (running 0x0103#32)).Inv :=
  running_inv _ (by decide)

/-- The one stop: an illegal word latched while `BUSY = 1`, which no run reaches. -/
theorem witness_theOnlyStopIsAnIllegalLatch :
    faultOf (step (idle (running 7#32))) = some (.curNotLegal 7#32) := by decide

/-- A run with an event still pending. -/
theorem witness_everyRunEnds :
    ((idle (running 5#32)).withNext (.read 0x004#12 4)).Inv := running_inv _ (by decide)

/-- Each cause of a change of `BUSY` and `CUR`. -/
theorem witness_busyAndCurChangeOnlyByRule :
    (∃ t, step (State.reset.withNext (.write 0x000#12 4 6#32)) = .next t ∧
      State.reset.block.busy = false ∧ t.block.busy = true) ∧
    (∃ t, step ((idle (running 6#32)).withNext .reset) = .next t ∧
      t.block.cur ≠ (running 6#32).cur ∧ (running 6#32).busy = true ∧ t.block.busy = false) ∧
    (∃ t, step (idle (running 6#32)) = .next t ∧ (running 6#32).busy = true ∧
      t.block.busy = false) :=
  ⟨⟨_, rfl, rfl, rfl⟩, ⟨_, rfl, by decide, rfl, rfl⟩, ⟨_, rfl, rfl, rfl⟩⟩

theorem witness_firstFaultIsKept :
    (∃ t, step ((idle faulted).withNext (.write 0x004#12 4 4#32)) = .next t ∧
      t.block.err = false) ∧
    (∃ t, step ((idle faulted).withNext (.write 0x004#12 4 2#32)) = .next t ∧
      t.block.err = true) ∧
    (idle faulted).block.err = true ∧ (idle faulted).block.busy = false :=
  ⟨⟨_, rfl, rfl⟩, ⟨_, rfl, rfl⟩, rfl, rfl⟩

theorem witness_inputsStayUntilOverwritten :
    ∃ t, step ((idle abc).withNext (.write 0x05C#12 4 1#32)) = .next t ∧
      t.block.msg[7] = 1#32 := ⟨_, rfl, rfl⟩

theorem witness_loadMessageLineLoads :
    (idle zerosHashed).block.busy = false ∧ (zeros 32).length ≤ 32 := by decide

end Sys2Proof.Tests
end

/-! # The register map as the host port uses it (spec/10_state.md R22, spec/20_memory.md R64, R70) -/

namespace Sys2Proof.Machine

@[simp] theorem regInRun_val {count : Nat} (mk : Fin count → Reg) (j : Fin count) :
    regInRun count mk j.val = some (mk j) := by
  simp [regInRun]

/-! R22: the six runs of registers, by their first word number. -/

theorem regAtWord_msg (j : Fin 8) : regAtWord (0x010 + j) = some (.msg j) := by
  simp (disch := omega) only [regAtWord, if_neg, if_pos, Nat.add_sub_cancel_left, regInRun_val]

theorem regAtWord_digest (j : Fin 8) : regAtWord (0x018 + j) = some (.digest j) := by
  simp (disch := omega) only [regAtWord, if_neg, if_pos, Nat.add_sub_cancel_left, regInRun_val]

theorem regAtWord_idx (i : Fin 24) : regAtWord (0x020 + i) = some (.idx i) := by
  simp (disch := omega) only [regAtWord, if_neg, if_pos, Nat.add_sub_cancel_left, regInRun_val]

theorem regAtWord_seed (j : Fin 16) : regAtWord (0x040 + j) = some (.seed j) := by
  simp (disch := omega) only [regAtWord, if_neg, if_pos, Nat.add_sub_cancel_left, regInRun_val]

theorem regAtWord_salt (j : Fin 64) : regAtWord (0x080 + j) = some (.salt j) := by
  simp (disch := omega) only [regAtWord, if_neg, if_pos, Nat.add_sub_cancel_left, regInRun_val]

theorem regAtWord_pwd (j : Fin 256) : regAtWord (0x100 + j) = some (.pwd j) := by
  simp (disch := omega) only [regAtWord, if_neg, Nat.add_sub_cancel_left, regInRun_val]

/-- R22: a register's offset is four times a word number, at which the map has that register. -/
theorem Reg.offset_eq_word (r : Reg) :
    ∃ n, n < 0x400 ∧ r.offset = BitVec.ofNat 12 (4 * n) ∧ regAtWord n = some r := by
  cases r with
  | cmd => exact ⟨0x000, by decide, rfl, rfl⟩
  | status => exact ⟨0x001, by decide, rfl, rfl⟩
  | ctrl => exact ⟨0x002, by decide, rfl, rfl⟩
  | errcode => exact ⟨0x003, by decide, rfl, rfl⟩
  | errinfo => exact ⟨0x004, by decide, rfl, rfl⟩
  | msgLen => exact ⟨0x005, by decide, rfl, rfl⟩
  | pwdLen => exact ⟨0x006, by decide, rfl, rfl⟩
  | saltLen => exact ⟨0x007, by decide, rfl, rfl⟩
  | ngroups => exact ⟨0x008, by decide, rfl, rfl⟩
  | gsel => exact ⟨0x009, by decide, rfl, rfl⟩
  | msg j => exact ⟨0x010 + j, by omega, by simp [Reg.offset, Nat.mul_add], regAtWord_msg j⟩
  | digest j => exact ⟨0x018 + j, by omega, by simp [Reg.offset, Nat.mul_add], regAtWord_digest j⟩
  | idx i => exact ⟨0x020 + i, by omega, by simp [Reg.offset, Nat.mul_add], regAtWord_idx i⟩
  | seed j => exact ⟨0x040 + j, by omega, by simp [Reg.offset, Nat.mul_add], regAtWord_seed j⟩
  | salt j => exact ⟨0x080 + j, by omega, by simp [Reg.offset, Nat.mul_add], regAtWord_salt j⟩
  | pwd j => exact ⟨0x100 + j, by omega, by simp [Reg.offset, Nat.mul_add], regAtWord_pwd j⟩

/-- R22: every register stands at a multiple of 4. -/
@[simp] theorem Reg.offset_aligned (r : Reg) : r.offset.toNat % 4 = 0 := by
  obtain ⟨n, hn, hoff, -⟩ := r.offset_eq_word
  rw [hoff, BitVec.toNat_ofNat]
  omega

/-- R22: the register at a register's offset is that register. -/
@[simp] theorem regAt_offset (r : Reg) : regAt r.offset = some r := by
  obtain ⟨n, hn, hoff, hreg⟩ := r.offset_eq_word
  have hword : r.offset.toNat / 4 = n := by
    rw [hoff, BitVec.toNat_ofNat]
    omega
  rw [regAt, if_pos r.offset_aligned, hword, hreg]

/-- R64: a 4-byte read at a register's offset. -/
@[simp] theorem memRead_offset (b : Block) (r : Reg) :
    memRead b r.offset 4 = .ok (b.regValue r) :=
  memRead_of_regAt r.offset_aligned (regAt_offset r)

/-- R69: a register whose write is accepted is not read-only. -/
theorem readOnly_eq_false_of_writeReg_ok {b b' : Block} {r : Reg} {v : Word}
    (h : writeReg b r v = .ok b') : r.readOnly = false := by
  rcases writeReg_ok h with ⟨rfl, -⟩ | ⟨rfl, -⟩ | ⟨rfl, -⟩ | ⟨rfl, -⟩ | ⟨rfl, -⟩ | ⟨rfl, -⟩ |
    ⟨j, rfl, -⟩ | ⟨j, rfl, -⟩ | ⟨j, rfl, -⟩ <;> rfl

/-- R70: an accepted write of the register is the accepted 4-byte write at its offset. -/
theorem memWrite_offset_ok {b b' : Block} {r : Reg} {v : Word} (h : writeReg b r v = .ok b') :
    memWrite b r.offset 4 v = .ok b' := by
  simp [memWrite, legalShape, readOnly_eq_false_of_writeReg_ok h, h]

/-- R70, R73: the step of an accepted host write to the register `r`. -/
theorem step_writeReg_ok {s : State} {r : Reg} {v : Word} {b : Block}
    (h : writeReg s.block r v = .ok b) :
    step (s.withNext (.write r.offset 4 v)) = .next (s.answered b .writeOk) :=
  step_write_ok (memWrite_offset_ok h)

/-- R64: the step of a host read of the register `r`, which is never refused. -/
theorem step_readReg (s : State) (r : Reg) :
    step (s.withNext (.read r.offset 4)) =
      .next (s.answered s.block (.readOk (s.block.regValue r))) :=
  step_read_ok (memRead_offset s.block r)

/-! # Accepted writes to the input registers (spec/10_state.md R49, R50) -/

section
variable {b : Block} {v : Word}

theorem writeReg_msg (j : Fin 8) (hidle : b.busy = false) :
    writeReg b (.msg j) v = .ok { b with msg := b.msg.set j.val v }.invalM := by
  simp [writeReg, hidle]

theorem writeReg_salt (j : Fin 64) (hidle : b.busy = false) :
    writeReg b (.salt j) v = .ok { b with salt := b.salt.set j.val v }.invalK := by
  simp [writeReg, hidle]

theorem writeReg_pwd (j : Fin 256) (hidle : b.busy = false) :
    writeReg b (.pwd j) v = .ok { b with pwd := b.pwd.set j.val v }.invalK := by
  simp [writeReg, hidle]

theorem writeReg_msgLen (hidle : b.busy = false) (hcap : v.toNat ≤ Config.msgCap) :
    writeReg b .msgLen v = .ok { b with msgLen := BitVec.ofNat 6 v.toNat }.invalM := by
  simp [writeReg, hidle, Nat.not_lt.mpr hcap]

theorem writeReg_pwdLen (hidle : b.busy = false) (hcap : v.toNat ≤ Config.pwdCap) :
    writeReg b .pwdLen v = .ok { b with pwdLen := BitVec.ofNat 11 v.toNat }.invalK := by
  simp [writeReg, hidle, Nat.not_lt.mpr hcap]

theorem writeReg_saltLen (hidle : b.busy = false) (hcap : v.toNat ≤ Config.saltCap) :
    writeReg b .saltLen v = .ok { b with saltLen := BitVec.ofNat 9 v.toNat }.invalK := by
  simp [writeReg, hidle, Nat.not_lt.mpr hcap]

end

/-- Settles O18: each write stores its value and does `InvalM`, spelt out field by field. -/
theorem messageWriteInvalidates : Obligations.MessageWriteInvalidates := by
  intro s v hidle
  constructor
  · intro j
    exact step_writeReg_ok (writeReg_msg j hidle)
  · intro hcap
    exact step_writeReg_ok (writeReg_msgLen hidle hcap)

/-- Settles O19: each write stores its value and does `InvalK`, spelt out field by field. -/
theorem seedSideWriteInvalidates : Obligations.SeedSideWriteInvalidates := by
  intro s v hidle
  refine ⟨?pwd, ?salt, ?pwdLen, ?saltLen⟩
  case pwd =>
    intro j
    exact step_writeReg_ok (writeReg_pwd j hidle)
  case salt =>
    intro j
    exact step_writeReg_ok (writeReg_salt j hidle)
  case pwdLen =>
    intro hcap
    exact step_writeReg_ok (writeReg_pwdLen hidle hcap)
  case saltLen =>
    intro hcap
    exact step_writeReg_ok (writeReg_saltLen hidle hcap)

/-! # `STATUS` and `CTRL`, which no lock guards (spec/10_state.md R24, R34) -/

@[simp] theorem writeReg_status (b : Block) (v : Word) :
    writeReg b .status v = .ok (writeStatus b v) := rfl

@[simp] theorem writeReg_ctrl (b : Block) (v : Word) :
    writeReg b .ctrl v = .ok (writeCtrl b v) := rfl

/-- R24: the `STATUS` word is zero above its eight flags. -/
theorem statusWord_getLsbD_of_ge (b : Block) {n : Nat} (h : 8 ≤ n) :
    b.statusWord.getLsbD n = false := by
  by_cases hn : n < 32
  · rw [statusWord_getLsbD b ⟨n, hn⟩]
    exact List.getD_eq_default _ _ h
  · exact BitVec.getLsbD_of_ge _ _ (Nat.not_lt.mp hn)

/-- Two flags above thirty zero bits: every bit at once. -/
theorem flagPair_bits :
    ∀ (f1 f0 : Bool) (n : Fin 32),
      (0#30 ++ BitVec.ofBool f1 ++ BitVec.ofBool f0 : Word).getLsbD n.val =
        [f0, f1].getD n.val false := by
  decide

/-- R34: the bits of the `CTRL` word. -/
theorem ctrlWord_getLsbD (b : Block) (n : Fin 32) :
    b.ctrlWord.getLsbD n.val = [b.ieDone, b.ieErr].getD n.val false :=
  flagPair_bits _ _ n

/-- The mask of `CTRL`'s two bits. -/
theorem ctrlMask_getLsbD : ∀ n : Fin 32, (0x00000003#32).getLsbD n.val = decide (n.val < 2) := by
  decide

/-- R34: the `CTRL` word after a write of `v` is bits 1:0 of `v`, zero-extended. -/
theorem ctrlWord_writeCtrl (b : Block) (v : Word) :
    (writeCtrl b v).ctrlWord = v &&& 0x00000003#32 := by
  refine BitVec.eq_of_getLsbD_eq fun i hi => ?_
  rw [ctrlWord_getLsbD _ ⟨i, hi⟩, BitVec.getLsbD_and, ctrlMask_getLsbD ⟨i, hi⟩]
  match i with
  | 0 => simp [writeCtrl]
  | 1 => simp [writeCtrl]
  | i + 2 => simp

theorem irq_writeCtrl (b : Block) (v : Word) :
    (writeCtrl b v).irq = ((b.done && v.getLsbD 0) || (b.err && v.getLsbD 1)) := rfl

/-- Settles O21: the write by `writeStatus_eq`, the read by the bits of the `STATUS` word. -/
theorem statusIsWriteOneToClear : Obligations.StatusIsWriteOneToClear := by
  refine ⟨?write, ?read, ?reset⟩
  case write =>
    intro s v
    rw [← writeStatus_eq]
    exact step_writeReg_ok (writeReg_status s.block v)
  case read =>
    intro s
    exact ⟨s.block.statusWord, step_readReg s .status, statusWord_busy _, statusWord_done _,
      statusWord_err _, statusWord_dv _, statusWord_iv _, statusWord_gv _, statusWord_sv _,
      statusWord_entOk _, fun _ => statusWord_getLsbD_of_ge _⟩
  case reset => decide

/-- Settles O22: the write of `CTRL` is `writeCtrl`, whose word and `irq` are stated above. -/
theorem controlRegisterStoresTwoBits : Obligations.ControlRegisterStoresTwoBits := by
  refine ⟨fun s v => ?_, by decide⟩
  refine ⟨s.answered (writeCtrl s.block v) .writeOk, step_writeReg_ok (writeReg_ctrl s.block v),
    rfl, ?_, irq_writeCtrl s.block v⟩
  rw [← ctrlWord_writeCtrl s.block v]
  exact step_readReg _ .ctrl

end Sys2Proof.Machine

/-! # The steps of a host access to a register (spec/20_memory.md R64, R70) -/

namespace Sys2Proof.Machine

/-- An offset given by its number is the word the offset column of R22 writes. -/
theorem eq_ofNat_of_toNat_eq {off : Offset} {n : Nat} (h : off.toNat = n) :
    off = BitVec.ofNat 12 n := by
  rw [← h, BitVec.ofNat_toNat, BitVec.setWidth_eq]

/-- R64: the step of any host read answers `readResponse` and leaves the block as it is. -/
theorem step_read (s : State) (off : Offset) (size : Nat) :
    step (s.withNext (.read off size)) =
      .next (s.answered s.block (readResponse s.block off size)) := rfl

/-- R64: the answer to a 4-byte read at a register's offset. -/
@[simp] theorem readResponse_offset (b : Block) (r : Reg) :
    readResponse b r.offset 4 = .readOk (b.regValue r) := by
  simp [readResponse]

/-- R69: `writeReg` itself refuses the read-only registers, as `memWrite` does before it. -/
theorem writeReg_readOnly (b : Block) {r : Reg} (v : Word) (hr : r.readOnly = true) :
    writeReg b r v = .error .readOnlyRegister := by
  cases r with
  | errcode | errinfo | ngroups | gsel => rfl
  | digest _ | idx _ | seed _ => rfl
  | cmd | status | ctrl | msgLen | pwdLen | saltLen => cases hr
  | msg _ | salt _ | pwd _ => cases hr

/-- R70: a 4-byte write at a register's offset is the write of that register. -/
@[simp] theorem memWrite_offset (b : Block) (r : Reg) (v : Word) :
    memWrite b r.offset 4 v = writeReg b r v := by
  cases hr : r.readOnly with
  | false => simp [memWrite, legalShape, hr]
  | true => simp [memWrite, legalShape, hr, writeReg_readOnly]

/-- R211: the step of a refused host write to the register `r`. -/
theorem step_writeReg_error {s : State} {r : Reg} {v : Word} {c : AccessCause}
    (h : writeReg s.block r v = .error c) :
    step (s.withNext (.write r.offset 4 v)) =
      .next (s.answered s.block (.accessFault r.offset)) :=
  step_write_error ((memWrite_offset s.block r v).trans h)

/-! # Accesses of a wrong shape and at reserved offsets (spec/20_memory.md R63, R65) -/

section
variable {off : Offset} {size : Nat}

/-- R63: an access of another size or at an unaligned offset has an illegal shape. -/
theorem legalShape_eq_false (h : size ≠ 4 ∨ off.toNat % 4 ≠ 0) : legalShape off size = false := by
  rcases h with hsize | halign
  · simp [legalShape, hsize]
  · simp [legalShape, halign]

theorem memRead_of_illegalShape (b : Block) (h : legalShape off size = false) :
    memRead b off size = .error .sizeOrAlignment :=
  if_pos h

theorem memWrite_of_illegalShape (b : Block) (v : Word) (h : legalShape off size = false) :
    memWrite b off size v = .error .sizeOrAlignment :=
  if_pos h

theorem regInRun_of_le {count n : Nat} (mk : Fin count → Reg) (h : count ≤ n) :
    regInRun count mk n = none :=
  dif_neg (Nat.not_lt.mpr h)

/-- R65: the word numbers between the runs of registers, at which the map has no register. -/
theorem regAtWord_reserved {n : Nat}
    (h : (0x00A ≤ n ∧ n ≤ 0x00F) ∨ (0x038 ≤ n ∧ n ≤ 0x03F) ∨ (0x050 ≤ n ∧ n ≤ 0x07F) ∨
      (0x0C0 ≤ n ∧ n ≤ 0x0FF) ∨ 0x200 ≤ n) : regAtWord n = none := by
  rcases h with ⟨hlo, hhi⟩ | hidx | hseed | hsalt | hpwd
  · interval_cases n <;> rfl
  · simp (disch := omega) only [regAtWord, if_neg, if_pos, regInRun_of_le]
  · simp (disch := omega) only [regAtWord, if_neg, if_pos, regInRun_of_le]
  · simp (disch := omega) only [regAtWord, if_neg, if_pos, regInRun_of_le]
  · simp (disch := omega) only [regAtWord, if_neg, regInRun_of_le]

/-- R65: a reserved offset holds no register. -/
theorem regAt_reserved (h : reservedOffset off = true) : regAt off = none := by
  simp only [reservedOffset, Bool.and_eq_true, Bool.or_eq_true, decide_eq_true_eq] at h
  obtain ⟨halign, hrange⟩ := h
  rw [regAt, if_pos halign]
  exact regAtWord_reserved (by omega)

theorem memRead_reserved (b : Block) (h : reservedOffset off = true) :
    ∃ c, memRead b off size = .error c := by
  cases hs : legalShape off size with
  | false => exact ⟨_, memRead_of_illegalShape b hs⟩
  | true => exact ⟨.reservedOffset, by simp [memRead, hs, regAt_reserved h]⟩

theorem memWrite_reserved (b : Block) (v : Word) (h : reservedOffset off = true) :
    ∃ c, memWrite b off size v = .error c := by
  cases hs : legalShape off size with
  | false => exact ⟨_, memWrite_of_illegalShape b v hs⟩
  | true => exact ⟨.reservedOffset, by simp [memWrite, hs, regAt_reserved h]⟩

/-- R65: the answer to a read at a reserved offset. -/
theorem readResponse_reserved (b : Block) (h : reservedOffset off = true) :
    readResponse b off size = .accessFault off := by
  obtain ⟨c, hc⟩ := memRead_reserved (size := size) b h
  simp [readResponse, hc]

end

/-- Settles O8: the answer is `readResponse`, whose value at each register's offset and at the
reserved offsets is stated above. -/
theorem readReturnsTheRegister : Obligations.ReadReturnsTheRegister := by
  intro s off
  refine ⟨readResponse s.block off 4, step_read s off 4, fun _ => ?_⟩
  have answer (r : Reg) {n : Nat} (hr : r.offset = BitVec.ofNat 12 n) (h : off.toNat = n) :
      readResponse s.block off 4 = .readOk (s.block.regValue r) := by
    rw [eq_ofNat_of_toNat_eq h, ← hr, readResponse_offset]
  exact ⟨answer .cmd rfl, answer .status rfl, answer .ctrl rfl, answer .errcode rfl,
    answer .errinfo rfl, answer .msgLen rfl, answer .pwdLen rfl, answer .saltLen rfl,
    answer .ngroups rfl, answer .gsel rfl, fun j => answer (.msg j) rfl,
    fun j => answer (.digest j) rfl, fun i => answer (.idx i) rfl, fun j => answer (.seed j) rfl,
    fun j => answer (.salt j) rfl, fun j => answer (.pwd j) rfl, readResponse_reserved s.block⟩

/-- Settles O11: the shape is tested before anything else. -/
theorem wrongSizeOrAlignmentFaults : Obligations.WrongSizeOrAlignmentFaults := by
  intro s off size v h
  have hshape : legalShape off size = false := legalShape_eq_false h
  exact ⟨step_read_error (memRead_of_illegalShape s.block hshape),
    step_write_error (memWrite_of_illegalShape s.block v hshape)⟩

/-- Settles O12: the five ranges are those of `reservedOffset`, where the map has no register. -/
theorem reservedOffsetsFault : Obligations.ReservedOffsetsFault := by
  intro s off v halign hrange
  have hres : reservedOffset off = true := by
    simpa [reservedOffset, halign, or_assoc] using hrange
  obtain ⟨cr, hread⟩ := memRead_reserved s.block hres
  obtain ⟨cw, hwrite⟩ := memWrite_reserved s.block v hres
  exact ⟨step_read_error hread, step_write_error hwrite⟩

/-! # The locks and the capacities (spec/20_memory.md R66 to R69) -/

/-- R66: the capacity of the buffer whose length a register holds; none for any other register. -/
def Reg.capacity : Reg → Option Nat
  | .msgLen => some Config.msgCap
  | .pwdLen => some Config.pwdCap
  | .saltLen => some Config.saltCap
  | _ => none

/-- R66: the registers with a capacity are input registers. -/
theorem Reg.isInput_of_capacity {r : Reg} {cap : Nat} (h : r.capacity = some cap) :
    r.isInput = true := by
  cases r with
  | msgLen | pwdLen | saltLen => rfl
  | msg _ | salt _ | pwd _ => rfl
  | cmd | status | ctrl | errcode | errinfo | ngroups | gsel => cases h
  | digest _ | idx _ | seed _ => cases h

section
variable {b : Block} {r : Reg} {v : Word}

/-- R67: the command register is locked by `BUSY`, then by `ERR`. -/
theorem writeReg_cmd_locked (h : b.busy = true ∨ b.err = true) :
    ∃ c, writeReg b .cmd v = .error c := by
  cases hbusy : b.busy with
  | true => exact ⟨.cmdWhileBusy, by simp [writeReg, hbusy]⟩
  | false =>
    have herr : b.err = true := by simpa [hbusy] using h
    exact ⟨.cmdWhileError, by simp [writeReg, hbusy, herr]⟩

/-- R67, R94: an unlocked command register issues the word. -/
theorem writeReg_cmd (hidle : b.busy = false) (hclear : b.err = false) :
    writeReg b .cmd v = .ok (issue b v) := by
  simp [writeReg, hidle, hclear]

/-- R68: `BUSY` locks every input register. -/
theorem writeReg_input_busy (hr : r.isInput = true) (hbusy : b.busy = true) :
    writeReg b r v = .error .inputWhileBusy := by
  cases r with
  | msgLen | pwdLen | saltLen => simp [writeReg, hbusy]
  | msg _ | salt _ | pwd _ => simp [writeReg, hbusy]
  | cmd | status | ctrl | errcode | errinfo | ngroups | gsel => cases hr
  | digest _ | idx _ | seed _ => cases hr

/-- R68: while `BUSY = 0` an input register takes every word, a length up to its capacity. -/
theorem writeReg_input_idle (hr : r.isInput = true) (hidle : b.busy = false)
    (hcap : ∀ cap ∈ r.capacity, v.toNat ≤ cap) : ∃ b', writeReg b r v = .ok b' := by
  cases r with
  | msgLen => exact ⟨_, writeReg_msgLen hidle (hcap _ rfl)⟩
  | pwdLen => exact ⟨_, writeReg_pwdLen hidle (hcap _ rfl)⟩
  | saltLen => exact ⟨_, writeReg_saltLen hidle (hcap _ rfl)⟩
  | msg j => exact ⟨_, writeReg_msg j hidle⟩
  | salt j => exact ⟨_, writeReg_salt j hidle⟩
  | pwd j => exact ⟨_, writeReg_pwd j hidle⟩
  | cmd | status | ctrl | errcode | errinfo | ngroups | gsel => cases hr
  | digest _ | idx _ | seed _ => cases hr

/-- R66: a length above the capacity is refused, whatever `BUSY` is. -/
theorem writeReg_above_capacity {cap : Nat} (hr : r.capacity = some cap) (hv : cap < v.toNat) :
    ∃ c, writeReg b r v = .error c := by
  cases hbusy : b.busy with
  | true => exact ⟨.inputWhileBusy, writeReg_input_busy (Reg.isInput_of_capacity hr) hbusy⟩
  | false =>
    refine ⟨.lengthTooLarge, ?_⟩
    cases r with
    | msgLen | pwdLen | saltLen => cases hr; simp [writeReg, hbusy, hv]
    | cmd | status | ctrl | errcode | errinfo | ngroups | gsel => cases hr
    | msg _ | salt _ | pwd _ | digest _ | idx _ | seed _ => cases hr

end

/-- R68: the offsets at which the input registers stand. -/
theorem exists_input_of_offset {off : Offset}
    (h : off ∈ [0x014#12, 0x018#12, 0x01C#12] ∨ (∃ j : Fin 8, off.toNat = 0x040 + 4 * j.val) ∨
      (∃ j : Fin 64, off.toNat = 0x200 + 4 * j.val) ∨
      (∃ j : Fin 256, off.toNat = 0x400 + 4 * j.val)) :
    ∃ r : Reg, r.isInput = true ∧ off = r.offset := by
  rcases h with hlen | ⟨j, hj⟩ | ⟨j, hj⟩ | ⟨j, hj⟩
  · simp only [List.mem_cons, List.not_mem_nil, or_false] at hlen
    rcases hlen with hoff | hoff | hoff
    · exact ⟨.msgLen, rfl, hoff⟩
    · exact ⟨.pwdLen, rfl, hoff⟩
    · exact ⟨.saltLen, rfl, hoff⟩
  · exact ⟨.msg j, rfl, eq_ofNat_of_toNat_eq hj⟩
  · exact ⟨.salt j, rfl, eq_ofNat_of_toNat_eq hj⟩
  · exact ⟨.pwd j, rfl, eq_ofNat_of_toNat_eq hj⟩

/-- R69: the offsets at which the read-only registers stand. -/
theorem exists_readOnly_of_offset {off : Offset}
    (h : off ∈ [0x00C#12, 0x010#12, 0x020#12, 0x024#12] ∨
      (∃ j : Fin 8, off.toNat = 0x060 + 4 * j.val) ∨
      (∃ i : Fin 24, off.toNat = 0x080 + 4 * i.val) ∨
      (∃ j : Fin 16, off.toNat = 0x100 + 4 * j.val)) :
    ∃ r : Reg, r.readOnly = true ∧ off = r.offset := by
  rcases h with hword | ⟨j, hj⟩ | ⟨i, hi⟩ | ⟨j, hj⟩
  · simp only [List.mem_cons, List.not_mem_nil, or_false] at hword
    rcases hword with hoff | hoff | hoff | hoff
    · exact ⟨.errcode, rfl, hoff⟩
    · exact ⟨.errinfo, rfl, hoff⟩
    · exact ⟨.ngroups, rfl, hoff⟩
    · exact ⟨.gsel, rfl, hoff⟩
  · exact ⟨.digest j, rfl, eq_ofNat_of_toNat_eq hj⟩
  · exact ⟨.idx i, rfl, eq_ofNat_of_toNat_eq hi⟩
  · exact ⟨.seed j, rfl, eq_ofNat_of_toNat_eq hj⟩

/-- Settles O16: `BUSY` alone decides, and a capacity is asked of a length register only. -/
theorem inputLock : Obligations.InputLock := by
  intro s off v hoff
  obtain ⟨r, hr, rfl⟩ := exists_input_of_offset hoff
  refine ⟨fun hbusy => step_writeReg_error (writeReg_input_busy hr hbusy), ?_⟩
  intro hidle hmsg hpwd hsalt
  have hcap : ∀ cap ∈ r.capacity, v.toNat ≤ cap := by
    intro cap hmem
    cases r with
    | msgLen => cases hmem; exact hmsg rfl
    | pwdLen => cases hmem; exact hpwd rfl
    | saltLen => cases hmem; exact hsalt rfl
    | _ => cases hmem
  obtain ⟨b, hb⟩ := writeReg_input_idle hr hidle hcap
  exact ⟨b, step_writeReg_ok hb⟩

/-- Settles O13: `STATUS` is written in every state, and an unlocked `CMD` issues. -/
theorem readOnlyRegistersRefuseWrites : Obligations.ReadOnlyRegistersRefuseWrites := by
  intro s v
  refine ⟨?readOnly, ?status, ?cmd⟩
  case readOnly =>
    intro off hoff
    obtain ⟨r, hr, rfl⟩ := exists_readOnly_of_offset hoff
    exact step_writeReg_error (writeReg_readOnly s.block v hr)
  case status =>
    exact ⟨_, step_writeReg_ok (writeReg_status s.block v)⟩
  case cmd =>
    intro hidle hclear
    exact ⟨_, step_writeReg_ok (writeReg_cmd hidle hclear)⟩

/-- Settles O14: the capacities are the three of `Reg.capacity`, compared with the whole word. -/
theorem lengthAboveCapacityFaults : Obligations.LengthAboveCapacityFaults := by
  intro s v
  have refused (r : Reg) {cap : Nat} (hr : r.capacity = some cap) (hv : v.toNat > cap) :
      step (s.withNext (.write r.offset 4 v)) =
        .next (s.answered s.block (.accessFault r.offset)) := by
    obtain ⟨c, hc⟩ := writeReg_above_capacity hr hv
    exact step_writeReg_error hc
  exact ⟨refused .msgLen rfl, refused .pwdLen rfl, refused .saltLen rfl⟩

/-- Settles O15: either flag refuses the write before the word is decoded. -/
theorem commandRegisterLock : Obligations.CommandRegisterLock := by
  intro s w hlocked
  obtain ⟨c, hc⟩ := writeReg_cmd_locked hlocked
  exact step_writeReg_error hc

end Sys2Proof.Machine

/-! # The decoder, by fields and by encoding (spec/30_encoding.md R91, R92, R104) -/

namespace Sys2Proof

/-- R91: a word with a zero reserved field is its operand and opcode side by side. -/
theorem eq_append_iff_fields (w : Word) (k op : BitVec 8) :
    w = 0#16 ++ k ++ op ↔ rsvField w = 0#16 ∧ kField w = k ∧ opField w = op := by
  constructor
  · rintro rfl
    exact Laws.encodingFields_of_fields k op
  · rintro ⟨hrsv, rfl, rfl⟩
    have hrsv := congrArg BitVec.toNat hrsv
    apply BitVec.eq_of_toNat_eq
    simp only [Laws.fieldsWord_toNat, rsvField, kField, opField, BitVec.extractLsb'_toNat,
      Nat.shiftRight_eq_div_pow, BitVec.toNat_ofNat] at hrsv ⊢
    omega

/-- R91: the encoding of a command is the word with its opcode and operand. -/
theorem encode_eq_iff_fields (i : Instr) (w : Word) :
    encode i = w ↔ rsvField w = 0#16 ∧ kField w = i.operand ∧ opField w = i.opcode :=
  eq_comm.trans (eq_append_iff_fields w i.operand i.opcode)

/-- R91: a format N word is legal exactly when its operand field is zero. -/
theorem decodeFormatN_eq_ok_iff (w : Word) (i j : Instr) :
    decodeFormatN w i = .ok j ↔ kField w = 0#8 ∧ i = j := by
  by_cases hk : kField w = 0#8 <;> simp [decodeFormatN, hk]

/-- R104, read backwards: a word that decodes has the fields of its command. -/
theorem fields_of_decode_eq_ok {w : Word} {i : Instr} (h : decode w = .ok i) :
    i.wf = true ∧ rsvField w = 0#16 ∧ kField w = i.operand ∧ opField w = i.opcode := by
  unfold decode at h
  split at h
  · cases h
  · next hrsv =>
    have hrsv : rsvField w = 0#16 := not_not.mp hrsv
    split at h
    case h_4 hop =>
      cases h
      exact ⟨decide_eq_true (kField w).isLt, hrsv, by simp [Instr.operand],
        BitVec.eq_of_toNat_eq hop⟩
    case h_8 => cases h
    all_goals
      next hop =>
      obtain ⟨hk, rfl⟩ := (decodeFormatN_eq_ok_iff _ _ _).mp h
      exact ⟨rfl, hrsv, hk, BitVec.eq_of_toNat_eq hop⟩

/-- R104: the decoder answers the well-formed command whose fields the word has. -/
theorem decode_of_fields {w : Word} {i : Instr} (hwf : i.wf = true) (hrsv : rsvField w = 0#16)
    (hk : kField w = i.operand) (hop : opField w = i.opcode) : decode w = .ok i := by
  cases i with
  | group k =>
    have hlt : k < 256 := of_decide_eq_true hwf
    simpa [decode, hrsv, hk, hop, Instr.opcode, Instr.operand] using hlt
  | nop | hash | groups | encode | seed | clr =>
    simp [decode, decodeFormatN, hrsv, hk, hop, Instr.opcode, Instr.operand]

/-- R98: with opcode 0x03 every operand is legal, and it is the group number. -/
theorem decode_group_of_fields {w : Word} (hrsv : rsvField w = 0#16) (hop : opField w = 0x03#8) :
    decode w = .ok (.group (kField w).toNat) :=
  decode_of_fields (decide_eq_true (kField w).isLt) hrsv (by simp [Instr.operand]) hop

/-- R104: a word decodes to `i` exactly when `i` is well formed and the word is its encoding. -/
theorem decode_eq_ok_iff (w : Word) (i : Instr) :
    decode w = .ok i ↔ i.wf = true ∧ encode i = w := by
  rw [encode_eq_iff_fields]
  exact ⟨fields_of_decode_eq_ok, fun ⟨hwf, hrsv, hk, hop⟩ => decode_of_fields hwf hrsv hk hop⟩

theorem decode_encode {i : Instr} (hwf : i.wf = true) : decode (encode i) = .ok i :=
  (decode_eq_ok_iff _ i).mpr ⟨hwf, rfl⟩

/-- R92: the legal words by their fields. -/
theorem exists_decode_iff_fields (w : Word) :
    (∃ i, decode w = .ok i) ↔
      rsvField w = 0#16 ∧
        ((opField w ∈ [0x00#8, 0x01#8, 0x02#8, 0x04#8, 0x05#8, 0x06#8] ∧ kField w = 0#8) ∨
          opField w = 0x03#8) := by
  constructor
  · rintro ⟨i, h⟩
    obtain ⟨-, hrsv, hk, hop⟩ := fields_of_decode_eq_ok h
    refine ⟨hrsv, ?_⟩
    cases i with
    | group k => exact .inr hop
    | nop | hash | groups | encode | seed | clr =>
      exact .inl ⟨by simp [hop, Instr.opcode], hk⟩
  · rintro ⟨hrsv, ⟨hop, hk⟩ | hop⟩
    · simp only [List.mem_cons, List.not_mem_nil, or_false] at hop
      rcases hop with hop | hop | hop | hop | hop | hop
      · exact ⟨.nop, decode_of_fields rfl hrsv hk hop⟩
      · exact ⟨.hash, decode_of_fields rfl hrsv hk hop⟩
      · exact ⟨.groups, decode_of_fields rfl hrsv hk hop⟩
      · exact ⟨.encode, decode_of_fields rfl hrsv hk hop⟩
      · exact ⟨.seed, decode_of_fields rfl hrsv hk hop⟩
      · exact ⟨.clr, decode_of_fields rfl hrsv hk hop⟩
    · exact ⟨_, decode_group_of_fields hrsv hop⟩

/-! ## The match/mask pairs (R92) -/

/-- R92: a row with the full mask matches its value alone, the encoding of the row's command. -/
theorem decode_eq_ok_iff_fullMask {i : Instr} (hwf : i.wf = true) (w : Word) :
    decode w = .ok i ↔ w &&& 0xFFFFFFFF#32 = encode i := by
  have hmask : w &&& 0xFFFFFFFF#32 = w := BitVec.and_allOnes
  rw [hmask, decode_eq_ok_iff, and_iff_right hwf, eq_comm]

/-- R92: the row of `GROUP` masks the operand field out and compares the other two. -/
theorem groupMask_iff_fields (w : Word) :
    w &&& 0xFFFF00FF#32 = 0x00000003#32 ↔ rsvField w = 0#16 ∧ opField w = 0x03#8 := by
  have hrsv : rsvField (w &&& 0xFFFF00FF#32) = rsvField w &&& BitVec.allOnes 16 :=
    BitVec.extractLsb'_and
  have hk : kField (w &&& 0xFFFF00FF#32) = kField w &&& 0#8 := BitVec.extractLsb'_and
  have hop : opField (w &&& 0xFFFF00FF#32) = opField w &&& BitVec.allOnes 8 :=
    BitVec.extractLsb'_and
  rw [show 0x00000003#32 = 0#16 ++ 0#8 ++ 0x03#8 from rfl, eq_append_iff_fields, hrsv, hk, hop,
    BitVec.and_allOnes, BitVec.and_allOnes, BitVec.and_zero]
  simp

theorem exists_decode_group_iff (w : Word) :
    (∃ k, decode w = .ok (.group k)) ↔ w &&& 0xFFFF00FF#32 = 0x00000003#32 := by
  rw [groupMask_iff_fields]
  constructor
  · rintro ⟨k, h⟩
    obtain ⟨-, hrsv, -, hop⟩ := fields_of_decode_eq_ok h
    exact ⟨hrsv, hop⟩
  · rintro ⟨hrsv, hop⟩
    exact ⟨_, decode_group_of_fields hrsv hop⟩

/-! ## The list of the legal words (R92, R104) -/

/-- The commands that have a word, in the order of `legalWordList`; see `mem_legalInstrs`. -/
def legalInstrs : List Instr :=
  [.nop, .hash, .groups, .encode, .seed, .clr] ++ (List.range 256).map .group

theorem mem_legalInstrs (i : Instr) : i ∈ legalInstrs ↔ i.wf = true := by
  cases i <;> simp [legalInstrs, Instr.wf]

theorem legalInstrs_nodup : legalInstrs.Nodup := by
  have hgroups : ((List.range 256).map Instr.group).Nodup :=
    List.nodup_range.map fun _ _ => Instr.group.inj
  refine List.Nodup.append (by decide) hgroups ?_
  intro i hN hgroup
  obtain ⟨k, -, rfl⟩ := List.mem_map.mp hgroup
  simp at hN

/-- R104: the word of `GROUP k` is `0x00000003 + (k << 8)`. -/
theorem encode_group {k : Nat} (hk : k < 256) :
    encode (.group k) = BitVec.ofNat 32 (3 + k * 256) := by
  apply BitVec.eq_of_toNat_eq
  rw [encode, Laws.fieldsWord_toNat]
  simp only [Instr.operand, Instr.opcode, BitVec.toNat_ofNat]
  omega

/-- R104: the list is the list of the encodings of the well-formed commands. -/
theorem legalWordList_eq_map_encode : legalWordList = legalInstrs.map encode := by
  have hgroups : (List.range 256).map (fun k => BitVec.ofNat 32 (3 + k * 256)) =
      (List.range 256).map (encode ∘ Instr.group) :=
    List.map_congr_left fun k hk => (encode_group (List.mem_range.mp hk)).symm
  rw [legalWordList, legalInstrs, List.map_append, List.map_map, hgroups]
  rfl

theorem mem_legalWordList_iff (w : Word) : w ∈ legalWordList ↔ ∃ i, decode w = .ok i := by
  simp only [legalWordList_eq_map_encode, List.mem_map, mem_legalInstrs, decode_eq_ok_iff]

/-- R92: the words are different, for the decoder tells the commands apart. -/
theorem legalWordList_nodup : legalWordList.Nodup := by
  rw [legalWordList_eq_map_encode]
  refine List.Nodup.map_on ?_ legalInstrs_nodup
  intro i hi j hj heq
  have hdecode := decode_encode ((mem_legalInstrs i).mp hi)
  rw [heq, decode_encode ((mem_legalInstrs j).mp hj)] at hdecode
  exact (Except.ok.inj hdecode).symm

theorem legalWordList_length : legalWordList.length = 262 := by
  simp [legalWordList]

/-- Settles O2: by the fields, by the match/mask pairs and by the list, each said above. -/
theorem legalWordsAreThoseOfTheTable : Obligations.LegalWordsAreThoseOfTheTable := by
  refine ⟨exists_decode_iff_fields, fun w => ?rows, legalWordList_length, legalWordList_nodup,
    mem_legalWordList_iff⟩
  exact ⟨decode_eq_ok_iff_fullMask rfl w, decode_eq_ok_iff_fullMask rfl w,
    decode_eq_ok_iff_fullMask rfl w, exists_decode_group_iff w, decode_eq_ok_iff_fullMask rfl w,
    decode_eq_ok_iff_fullMask rfl w, decode_eq_ok_iff_fullMask rfl w⟩

/-- R90: the opcodes end at 0x06. -/
theorem Instr.opcode_lt (i : Instr) : i.opcode.toNat < 0x07 := by
  cases i <;> simp [Instr.opcode]

/-- R99: the three classes of illegal words are outside the legal ones. -/
theorem decode_ne_ok_of_illegal {w : Word}
    (h : rsvField w ≠ 0#16 ∨ 0x07 ≤ (opField w).toNat ∨
      (opField w ∈ [0x00#8, 0x01#8, 0x02#8, 0x04#8, 0x05#8, 0x06#8] ∧ kField w ≠ 0#8))
    (i : Instr) : decode w ≠ .ok i := by
  intro hok
  obtain ⟨-, hrsv, hk, hop⟩ := fields_of_decode_eq_ok hok
  rcases h with hreserved | hunassigned | ⟨hformatN, hoperand⟩
  · exact hreserved hrsv
  · rw [hop] at hunassigned
    exact absurd i.opcode_lt (Nat.not_lt.mpr hunassigned)
  · cases i with
    | group k => simp [hop, Instr.opcode] at hformatN
    | nop | hash | groups | encode | seed | clr => exact hoperand hk

end Sys2Proof

/-! # Issue and acceptance (spec/30_encoding.md R94 to R96) -/

namespace Sys2Proof.Machine

/-- R94: a legal word is accepted. -/
theorem issue_of_decode {b : Block} {w : Word} {i : Instr} (h : decode w = .ok i) :
    issue b w = accept b w i := by
  rw [issue, h]

/-- R95: every other word is the fault `ILLEGAL_CMD`. -/
theorem issue_of_decode_ne {b : Block} {w : Word} (h : ∀ i, decode w ≠ .ok i) :
    issue b w = b.raiseFault .illegalCmd w := by
  rcases issue_cases b w with ⟨i, hi, -⟩ | ⟨-, hissue⟩
  · exact absurd hi (h i)
  · exact hissue

/-- R94: a write to `CMD` while neither lock holds is answered OK and issues the word. -/
theorem step_write_cmd {s : State} (w : Word) (hidle : s.block.busy = false)
    (hclear : s.block.err = false) :
    step (s.withNext (.write 0x000#12 4 w)) = .next (s.answered (issue s.block w) .writeOk) :=
  step_writeReg_ok (r := .cmd) (writeReg_cmd hidle hclear)

/-- Settles O24: the block is that of `accept`, which clears by the command. -/
theorem legalWordIsAccepted : Obligations.LegalWordIsAccepted := by
  intro s w i hidle hclear hdecode
  refine ⟨accept s.block w i, ?step, ?nothing, ?messageSide, ?indices, ?groupSelect, ?seedSide⟩
  case step => rw [step_write_cmd w hidle hclear, issue_of_decode hdecode]
  case nothing => rintro (rfl | rfl) <;> rfl
  case messageSide => rintro (rfl | rfl) <;> rfl
  case indices => rintro rfl; rfl
  case groupSelect => rintro k rfl; rfl
  case seedSide => rintro rfl; rfl

/-- Settles O25: no illegal word decodes, so its issue raises the fault. -/
theorem illegalWordIsReported : Obligations.IllegalWordIsReported := by
  intro s w hidle hclear hillegal
  rw [step_write_cmd w hidle hclear, issue_of_decode_ne (decode_ne_ok_of_illegal hillegal)]
  rfl

end Sys2Proof.Machine

/-! # The paddings of the two hashes (spec/40_sha256.md R125, spec/42_kdf.md R175) -/

namespace Sys2Proof.Machine

/-- R125, R175: the zero bytes are the least non-negative residue, so message, 0x80 and zeros end
`c + 1` bytes into a block, and the length bytes follow. -/
theorem padMessage_eq {c blockBytes : Nat} (lenBytes : Nat) (m : List Byte)
    (hpos : 0 < blockBytes) :
    ∃ z : Nat, z < blockBytes ∧ ((c : Int) - m.length) % blockBytes = z ∧
      padMessage c blockBytes lenBytes m =
        m ++ [0x80#8] ++ zeros z ++ beBytes lenBytes (8 * m.length) ∧
      (padMessage c blockBytes lenBytes m).length % blockBytes =
        (c + (1 + lenBytes)) % blockBytes := by
  obtain ⟨z, hz, hlt, hmod⟩ := padZeros_eq c blockBytes m.length hpos
  have hpad : padMessage c blockBytes lenBytes m =
      m ++ [0x80#8] ++ zeros z ++ beBytes lenBytes (8 * m.length) := by rw [padMessage, hz]
  refine ⟨z, hlt, ?residue, hpad, ?length⟩
  case residue =>
    rw [← hz, Int.toNat_of_nonneg (Int.emod_nonneg _ (by omega))]
  case length =>
    have hlen : (padMessage c blockBytes lenBytes m).length = m.length + z + (1 + lenBytes) := by
      rw [hpad]
      simp only [List.length_append, List.length_singleton, zeros_length, beBytes_length]
      omega
    rw [hlen, Nat.add_mod, hmod, ← Nat.add_mod]

/-- Settles O42: both paddings are `padMessage`, and 55 + 1 + 8 = 64, 111 + 1 + 16 = 128. -/
theorem paddingFillsWholeBlocks : Obligations.PaddingFillsWholeBlocks := by
  intro m
  exact ⟨padMessage_eq (c := 55) 8 m (by decide), padMessage_eq (c := 111) 16 m (by decide)⟩

end Sys2Proof.Machine

/-! # The message schedule (spec/40_sha256.md R127, spec/42_kdf.md R177) -/

namespace Sys2Proof.Machine

section
variable {w : Nat} (p : HashParams w)

/-- R127, R177: every word from the seventeenth on is the recurrence's value. -/
def FollowsRecurrence (ws : List (BitVec w)) : Prop :=
  ∀ t, 16 ≤ t → t < ws.length →
    ws.getD t 0 =
      p.ssig1 (ws.getD (t - 2) 0) + ws.getD (t - 7) 0 + p.ssig0 (ws.getD (t - 15) 0) +
        ws.getD (t - 16) 0

theorem extendSchedule_length (n : Nat) (l : List (BitVec w)) :
    (extendSchedule p n l).length = n + l.length := by
  induction n generalizing l with
  | zero => simp [extendSchedule]
  | succ n ih => rw [extendSchedule, ih, List.length_cons]; omega

/-- The words so far stay where they are. -/
theorem suffix_extendSchedule (n : Nat) (l : List (BitVec w)) : l <:+ extendSchedule p n l := by
  induction n generalizing l with
  | zero => exact List.suffix_rfl
  | succ n ih => exact (List.suffix_cons _ l).trans (ih _)

/-- The places of `nextScheduleWord`, newest first, are those of the recurrence in rising order. -/
theorem nextScheduleWord_eq {l : List (BitVec w)} (h : 16 ≤ l.length) :
    nextScheduleWord p l =
      p.ssig1 (l.reverse.getD (l.length - 2) 0) + l.reverse.getD (l.length - 7) 0 +
        p.ssig0 (l.reverse.getD (l.length - 15) 0) + l.reverse.getD (l.length - 16) 0 := by
  have hplace (i : Nat) (hi : i < 16) : l.reverse.getD (l.length - (i + 1)) 0 = l.getD i 0 := by
    rw [List.getD_reverse _ (by omega)]
    congr 1
    omega
  rw [hplace 1 (by decide), hplace 6 (by decide), hplace 14 (by decide), hplace 15 (by decide),
    nextScheduleWord]

variable {p}

/-- One more word keeps the recurrence: the older words are looked up as before. -/
theorem followsRecurrence_nextScheduleWord {l : List (BitVec w)} (h : 16 ≤ l.length)
    (hl : FollowsRecurrence p l.reverse) :
    FollowsRecurrence p (nextScheduleWord p l :: l).reverse := by
  intro t ht hlt
  have hold (i : Nat) (hi : i < l.length) :
      (nextScheduleWord p l :: l).reverse.getD i 0 = l.reverse.getD i 0 := by
    rw [List.reverse_cons, List.getD_append _ _ _ _ (by simpa using hi)]
  rw [List.length_reverse, List.length_cons] at hlt
  rw [hold (t - 2) (by omega), hold (t - 7) (by omega), hold (t - 15) (by omega),
    hold (t - 16) (by omega)]
  rcases Nat.lt_succ_iff_lt_or_eq.mp hlt with hlt | rfl
  · rw [hold t hlt]
    exact hl t ht (by simpa using hlt)
  · rw [← nextScheduleWord_eq p h, List.reverse_cons, List.getD_append_right _ _ _ _ (by simp)]
    simp

theorem followsRecurrence_extendSchedule (n : Nat) {l : List (BitVec w)} (h : 16 ≤ l.length)
    (hl : FollowsRecurrence p l.reverse) : FollowsRecurrence p (extendSchedule p n l).reverse := by
  induction n generalizing l with
  | zero => exact hl
  | succ n ih => exact ih (Nat.le_succ_of_le h) (followsRecurrence_nextScheduleWord h hl)

variable (p)

theorem schedule_length {m : List (BitVec w)} (hm : m.length = 16) (hk : 16 ≤ p.k.length) :
    (schedule p m).length = p.k.length := by
  rw [schedule, List.length_reverse, extendSchedule_length, List.length_reverse, hm]
  omega

/-- R127, R177: `W[t] = M[t]` below 16. -/
theorem schedule_getElem?_lt {m : List (BitVec w)} {t : Nat} (ht : t < m.length) :
    (schedule p m)[t]? = m[t]? := by
  have hprefix := List.reverse_prefix.mpr (suffix_extendSchedule p (p.k.length - 16) m.reverse)
  rw [List.reverse_reverse] at hprefix
  obtain ⟨rest, hrest⟩ : m <+: schedule p m := hprefix
  rw [← hrest, List.getElem?_append_left ht]

/-- R127, R177: a block's own sixteen words leave the recurrence nothing to say. -/
theorem schedule_followsRecurrence {m : List (BitVec w)} (hm : m.length = 16) :
    FollowsRecurrence p (schedule p m) := by
  refine followsRecurrence_extendSchedule _ (by simp [hm]) fun t ht hlt => ?_
  rw [List.reverse_reverse, hm] at hlt
  omega

/-- R127, R177: the three parts together, one word per round constant. -/
theorem schedule_spec {n : Nat} (hn : p.k.length = n) (hk : 16 ≤ n) {m : List (BitVec w)}
    (hm : m.length = 16) :
    (schedule p m).length = n ∧ (∀ t, t < 16 → (schedule p m)[t]? = m[t]?) ∧
    (∀ t, 16 ≤ t → t < n →
      (schedule p m).getD t 0 =
        p.ssig1 ((schedule p m).getD (t - 2) 0) + (schedule p m).getD (t - 7) 0 +
          p.ssig0 ((schedule p m).getD (t - 15) 0) + (schedule p m).getD (t - 16) 0) := by
  subst hn
  have hlen := schedule_length p hm hk
  refine ⟨hlen, fun t ht => schedule_getElem?_lt p (hm ▸ ht), fun t ht hlt => ?_⟩
  exact schedule_followsRecurrence p hm t ht (hlen ▸ hlt)

end

/-- Settles O41: SHA-256 has 64 round constants and SHA-512 has 80. -/
theorem scheduleRecurrence : Obligations.ScheduleRecurrence :=
  ⟨fun _ => schedule_spec sha256Params rfl (by decide),
    fun _ => schedule_spec sha512Params rfl (by decide)⟩

end Sys2Proof.Machine

/-! # The bytes of words and the words of bytes (spec/00_scope.md R9, spec/10_state.md R42, R48) -/

namespace Sys2Proof.Machine

/-- R42: a word is its four bytes side by side, byte 0 the most significant. -/
theorem wordByte_append (w : Word) :
    wordByte w 0 ++ wordByte w 1 ++ wordByte w 2 ++ wordByte w 3 = w := by
  simp only [wordByte]
  rw [BitVec.extractLsb'_append_extractLsb'_eq_extractLsb' (by rfl),
    BitVec.extractLsb'_append_extractLsb'_eq_extractLsb' (by rfl),
    BitVec.extractLsb'_append_extractLsb'_eq_extractLsb' (by rfl)]
  exact BitVec.extractLsb'_eq_self

/-- R9: the integer of a longer byte string, cut to the width, has the last byte at the end. -/
theorem ofNat_intOf_append_singleton (n : Nat) (s : List Byte) (x : Byte) :
    BitVec.ofNat (n + 8) (intOf (s ++ [x])) = BitVec.ofNat n (intOf s) ++ x := by
  apply BitVec.eq_of_toNat_eq
  have hx := x.isLt
  have hint : intOf (s ++ [x]) = intOf s * 256 + x.toNat := by
    rw [intOf_append, intOf_cons]
    simp
  have hdiv : (intOf s * 256 + x.toNat) / 256 = intOf s := by omega
  rw [BitVec.toNat_append, ← Nat.shiftLeft_add_eq_or_of_lt hx, Nat.shiftLeft_eq,
    BitVec.toNat_ofNat, BitVec.toNat_ofNat, hint, Nat.add_comm n, pow_add, Nat.mod_mul]
  norm_num only
  rw [hdiv]
  omega

/-- R48: the word of four bytes is the bytes side by side. -/
theorem ofNat_intOf_four (a b c d : Byte) :
    BitVec.ofNat 32 (intOf [a, b, c, d]) = a ++ b ++ c ++ d := by
  rw [show [a, b, c, d] = [a] ++ [b] ++ [c] ++ [d] from rfl, ofNat_intOf_append_singleton 24,
    ofNat_intOf_append_singleton 16, ofNat_intOf_append_singleton 8]
  simp [intOf]

theorem byte_and_mask (x : Byte) : x &&& 0xFF#8 = x := BitVec.and_allOnes

/-- A mask and a set of bits act on a word byte by byte. -/
theorem and_or_bytes (w : Word) (a b c d a' b' c' d' : Byte) :
    w &&& (a ++ b ++ c ++ d) ||| (a' ++ b' ++ c' ++ d') =
      (wordByte w 0 &&& a ||| a') ++ (wordByte w 1 &&& b ||| b') ++
        (wordByte w 2 &&& c ||| c') ++ (wordByte w 3 &&& d ||| d') := by
  rw [← BitVec.or_append, ← BitVec.or_append, ← BitVec.or_append, ← BitVec.and_append,
    ← BitVec.and_append, ← BitVec.and_append, wordByte_append]

/-- R42: the first `r` bytes of a word. -/
def wordBytes (w : Word) (r : Nat) : List Byte := (List.range r).map (wordByte w)

@[simp] theorem wordBytes_length (w : Word) (r : Nat) : (wordBytes w r).length = r := by
  simp [wordBytes]

theorem words32_wordBytes_four (w : Word) : words32 (wordBytes w 4) = [w] := by
  have hword : BitVec.ofNat 32 (intOf (wordBytes w 4)) = w :=
    (ofNat_intOf_four _ _ _ _).trans (wordByte_append w)
  rw [← List.append_nil (wordBytes w 4), words32_append4 _ _ rfl, hword]
  rfl

/-- R48: the bytes of a buffer are those of its words, whole words first. -/
theorem bufferBytes_add (ws : List Word) (k : Nat) {r : Nat} (hr : r ≤ 4) :
    bufferBytes ws (4 * k + r) = bufferBytes ws (4 * k) ++ wordBytes (ws.getD k 0#32) r := by
  rw [bufferBytes, List.range_add, List.map_append, List.map_map]
  congr 1
  refine List.map_congr_left fun i hi => ?_
  have hi : i < 4 := Nat.lt_of_lt_of_le (List.mem_range.mp hi) hr
  have hdiv : (4 * k + i) / 4 = k := by omega
  have hmod : (4 * k + i) % 4 = i := by omega
  rw [Function.comp_apply, bufferByte, hdiv, hmod]

/-- R48: whole words of a buffer come back from their bytes. -/
theorem words32_bufferBytes (ws : List Word) {k : Nat} (hk : k ≤ ws.length) :
    words32 (bufferBytes ws (4 * k)) = ws.take k := by
  induction k with
  | zero => rfl
  | succ k ih =>
    rw [Nat.mul_succ, bufferBytes_add ws k (le_refl 4),
      words32_append _ _ k (bufferBytes_length _ _), ih (by omega), words32_wordBytes_four,
      List.getD_eq_getElem _ _ hk, List.take_append_getElem]

theorem zeros_add (m n : Nat) : zeros (m + n) = zeros m ++ zeros n :=
  List.replicate_append_replicate.symm

theorem words32_zeros (k : Nat) : words32 (zeros (4 * k)) = List.replicate k 0#32 := by
  induction k with
  | zero => rfl
  | succ k ih =>
    rw [Nat.mul_succ, Nat.add_comm, zeros_add, words32_append4 _ _ rfl, ih]
    rfl

/-- R9: the last `k` bytes of `be` hold the lower digits, the bytes before them the rest. -/
theorem beBytes_add (n k v : Nat) : beBytes (n + k) v = beBytes n (v / 256 ^ k) ++ beBytes k v := by
  induction k generalizing v with
  | zero => simp [beBytes]
  | succ k ih =>
    rw [← Nat.add_assoc, beBytes_succ, ih, beBytes_succ k, Nat.div_div_eq_div_mul, pow_succ',
      List.append_assoc]

/-- R48: a length that fits a word, written in 8 bytes, is a zero word and the length. -/
theorem words32_beBytes_eight {v : Nat} (hv : v < 2 ^ 32) :
    words32 (beBytes 8 v) = [0#32, BitVec.ofNat 32 v] := by
  have hhigh : v / 256 ^ 4 = 0 := Nat.div_eq_of_lt hv
  have hlow := words32_append4 (beBytes 4 v) [] (beBytes_length _ _)
  rw [List.append_nil, intOf_beBytes, Nat.mod_eq_of_lt (by omega)] at hlow
  rw [beBytes_add 4 4, hhigh, words32_append4 _ _ (beBytes_length _ _), hlow]
  rfl

end Sys2Proof.Machine

/-! # A message that fits one block (spec/40_sha256.md R131) -/

namespace Sys2Proof.Machine

/-- R131: up to 55 bytes the least residue is `55 - L` itself. -/
theorem pad256_of_length_le {m : List Byte} (hm : m.length ≤ 55) :
    pad256 m = m ++ [0x80#8] ++ zeros (55 - m.length) ++ beBytes 8 (8 * m.length) := by
  obtain ⟨z, -, hz, hpad, -⟩ := (paddingFillsWholeBlocks m).1
  have hz : z = 55 - m.length := by omega
  rw [hpad, hz]

theorem pad256_length_of_length_le {m : List Byte} (hm : m.length ≤ 55) :
    (pad256 m).length = 64 := by
  rw [pad256_of_length_le hm]
  simp only [List.length_append, List.length_singleton, zeros_length, beBytes_length]
  omega

theorem words32_pad256_length {m : List Byte} (hm : m.length ≤ 55) :
    (words32 (pad256 m)).length = 16 := by
  rw [words32_length, pad256_length_of_length_le hm]

theorem absorbBlocks_one {w : Nat} (p : HashParams w) (hv : HashVars w) (ws : List (BitVec w)) :
    absorbBlocks p 1 hv ws = compress p hv (ws.take 16) := rfl

/-- R131: `N = 1`. -/
theorem sha256State_of_length_le {m : List Byte} (hm : m.length ≤ 55) :
    sha256State m = compress256 iv256 (words32 (pad256 m)) := by
  rw [sha256State, pad256_length_of_length_le hm, Nat.div_self (by decide), absorbBlocks_one,
    List.take_of_length_le (words32_pad256_length hm).le, compress256]

/-- R131: a word cut after its first `r` bytes, closed by the byte 0x80 and zeros. -/
def markedWord (w : Word) (r : Nat) : Word :=
  BitVec.ofNat 32 (intOf (wordBytes w r ++ [0x80#8] ++ zeros (3 - r)))

theorem markedWord_zero (w : Word) : markedWord w 0 = 0x80000000#32 := rfl

/-- The marked word by a mask and a set of bits, from what they do to each byte. -/
theorem markedWord_eq_and_or {w : Word} {r : Nat} (a b c d a' b' c' d' : Byte)
    (hbytes : wordBytes w r ++ [0x80#8] ++ zeros (3 - r) =
      [wordByte w 0 &&& a ||| a', wordByte w 1 &&& b ||| b', wordByte w 2 &&& c ||| c',
        wordByte w 3 &&& d ||| d']) :
    markedWord w r = w &&& (a ++ b ++ c ++ d) ||| (a' ++ b' ++ c' ++ d') := by
  rw [markedWord, hbytes, ofNat_intOf_four, and_or_bytes]

theorem markedWord_one (w : Word) : markedWord w 1 = w &&& 0xFF000000#32 ||| 0x00800000#32 :=
  markedWord_eq_and_or 0xFF#8 0#8 0#8 0#8 0#8 0x80#8 0#8 0#8
    (by simp [wordBytes, List.range_succ, zeros, byte_and_mask])

theorem markedWord_two (w : Word) : markedWord w 2 = w &&& 0xFFFF0000#32 ||| 0x00008000#32 :=
  markedWord_eq_and_or 0xFF#8 0xFF#8 0#8 0#8 0#8 0#8 0x80#8 0#8
    (by simp [wordBytes, List.range_succ, zeros, byte_and_mask])

theorem markedWord_three (w : Word) : markedWord w 3 = w &&& 0xFFFFFF00#32 ||| 0x00000080#32 :=
  markedWord_eq_and_or 0xFF#8 0xFF#8 0xFF#8 0#8 0#8 0#8 0#8 0x80#8
    (by simp [wordBytes, List.range_succ, zeros, byte_and_mask])

theorem take_msg_length (b : Block) {q : Nat} (hq : q ≤ 8) :
    (b.msg.toList.take q).length = q := by
  rw [List.length_take, Vector.length_toList, Nat.min_eq_left hq]

section
variable {b : Block} {q r : Nat} (hr : r < 4) (hlen : b.msgLen.toNat = 4 * q + r)
  (hcap : b.msgLen.toNat ≤ 32)
include hr hlen hcap

/-- R131: the sixteen words of the block: whole `MSG` words, the marked word, zeros, the length. -/
theorem words32_pad256_msgBytes :
    words32 (pad256 b.msgBytes) =
      b.msg.toList.take q ++ markedWord (b.msg.toList.getD q 0#32) r ::
        (List.replicate (14 - q) 0#32 ++ [BitVec.ofNat 32 (8 * b.msgLen.toNat)]) := by
  have hgap : zeros (55 - b.msgLen.toNat) = zeros (3 - r) ++ zeros (4 * (13 - q)) := by
    rw [← zeros_add]
    congr 1
    omega
  have hbytes : pad256 b.msgBytes =
      bufferBytes b.msg.toList (4 * q) ++
        ((wordBytes (b.msg.toList.getD q 0#32) r ++ [0x80#8] ++ zeros (3 - r)) ++
          (zeros (4 * (13 - q)) ++ beBytes 8 (8 * b.msgLen.toNat))) := by
    rw [pad256_of_length_le (by rw [Block.msgBytes_length]; omega), Block.msgBytes_length, hgap,
      Block.msgBytes, hlen, bufferBytes_add _ _ hr.le]
    simp only [List.append_assoc]
  have hzeros : List.replicate (14 - q) 0#32 = List.replicate (13 - q) 0#32 ++ [0#32] := by
    rw [← List.replicate_succ']
    congr 1
    omega
  rw [hbytes, words32_append _ _ q (bufferBytes_length _ _),
    words32_bufferBytes _ (by rw [Vector.length_toList]; omega),
    words32_append4 _ _ (by simp; omega), words32_append _ _ (13 - q) (zeros_length _),
    words32_zeros, words32_beBytes_eight (by omega), hzeros, List.append_assoc (List.replicate _ _)]
  rfl

theorem words32_pad256_getElem?_lt {t : Nat} (ht : t < q) :
    (words32 (pad256 b.msgBytes))[t]? = b.msg.toList[t]? := by
  have htake := take_msg_length b (q := q) (by omega)
  rw [words32_pad256_msgBytes hr hlen hcap, List.getElem?_append_left (by omega),
    List.getElem?_take_of_lt ht]

theorem words32_pad256_getElem?_mark :
    (words32 (pad256 b.msgBytes))[q]? = some (markedWord (b.msg.toList.getD q 0#32) r) := by
  have htake := take_msg_length b (q := q) (by omega)
  rw [words32_pad256_msgBytes hr hlen hcap, List.getElem?_append_right htake.le, htake,
    Nat.sub_self, List.getElem?_cons_zero]

/-- Past the marked word the places count from `q + 1`. -/
theorem words32_pad256_getElem?_gt (i : Nat) :
    (words32 (pad256 b.msgBytes))[q + 1 + i]? =
      (List.replicate (14 - q) 0#32 ++ [BitVec.ofNat 32 (8 * b.msgLen.toNat)])[i]? := by
  have htake := take_msg_length b (q := q) (by omega)
  rw [words32_pad256_msgBytes hr hlen hcap, List.getElem?_append_right (by omega), htake,
    show q + 1 + i - q = i + 1 by omega, List.getElem?_cons_succ]

theorem words32_pad256_getElem?_zero {t : Nat} (hq : q < t) (ht : t ≤ 14) :
    (words32 (pad256 b.msgBytes))[t]? = some 0#32 := by
  obtain ⟨i, rfl⟩ := Nat.exists_eq_add_of_lt hq
  rw [Nat.add_right_comm, words32_pad256_getElem?_gt hr hlen hcap,
    List.getElem?_append_left (by rw [List.length_replicate]; omega),
    List.getElem?_replicate_of_lt (by omega)]

theorem words32_pad256_getElem?_length :
    (words32 (pad256 b.msgBytes))[15]? = some (BitVec.ofNat 32 (8 * b.msgLen.toNat)) := by
  rw [show 15 = q + 1 + (14 - q) by omega, words32_pad256_getElem?_gt hr hlen hcap]
  simp

end

/-- Settles O40: the words of the block by the place of the marked word, which the remainder of the
length modulo 4 gives. -/
theorem oneBlockSuffices : Obligations.OneBlockSuffices := by
  refine ⟨fun m hm => ⟨pad256_length_of_length_le hm, pad256_of_length_le hm,
    sha256State_of_length_le hm⟩, ?registers⟩
  case registers =>
    rintro b q ⟨t, -⟩ hcap rfl
    have hr : b.msgLen.toNat % 4 < 4 := Nat.mod_lt _ (by decide)
    have hlen : b.msgLen.toNat = 4 * (b.msgLen.toNat / 4) + b.msgLen.toNat % 4 :=
      (Nat.div_add_mod _ 4).symm
    have hmark := words32_pad256_getElem?_mark hr hlen hcap
    refine ⟨words32_pad256_length (by rw [Block.msgBytes_length]; omega),
      words32_pad256_getElem?_lt hr hlen hcap, ?_, ?_, ?_, ?_,
      words32_pad256_getElem?_zero hr hlen hcap, ?_⟩
    · rintro hmod rfl
      rw [hmark, hmod, markedWord_zero]
    · rintro hmod rfl
      rw [hmark, hmod, markedWord_one]
    · rintro hmod rfl
      rw [hmark, hmod, markedWord_two]
    · rintro hmod rfl
      rw [hmark, hmod, markedWord_three]
    · rintro rfl
      exact words32_pad256_getElem?_length hr hlen hcap

end Sys2Proof.Machine

/-! # The groups of the concatenated buffer (spec/41_bitgroup.md R154, R158, R159) -/

namespace Sys2Proof.Machine

/-! ## The stream of a longer byte string -/

theorem streamBit_append_left {s : List Byte} {b : Nat} (t : List Byte) (h : b < bitlen s) :
    streamBit (s ++ t) b = streamBit s b := by
  have hbyte : b / 8 < s.length := by
    rw [bitlen] at h
    omega
  rw [streamBit, streamBit, List.getD_append _ _ _ _ hbyte]

theorem takeBits_append_left {s : List Byte} {b n : Nat} (t : List Byte) (h : b + n ≤ bitlen s) :
    takeBits (s ++ t) b n = takeBits s b n := by
  induction n with
  | zero => rfl
  | succ n ih =>
    rw [takeBits, takeBits, ih (by omega), streamBit_append_left t (by omega)]

/-- R158: a group inside the buffer does not depend on the bytes after it. -/
theorem groupOf_append_left {cb : List Byte} {g : Nat} (t : List Byte)
    (h : 11 * g + 11 ≤ bitlen cb) : groupOf (cb ++ t) g = groupOf cb g := by
  have hlong : 11 * g + 11 ≤ bitlen (cb ++ t) := by
    rw [bitlen_append]
    omega
  rw [groupOf_ok _ _ hlong, groupOf_ok _ _ h, takeBits_append_left t h]

/-! ## A group as a field of the buffer's integer (R154) -/

/-- R10: `take(s, b, n)` as a shift and a mask of `int(s)`. -/
theorem takeBits_eq_shiftRight_and {s : List Byte} {b n : Nat} (h : b + n ≤ bitlen s) :
    takeBits s b n = (intOf s >>> (bitlen s - b - n)) &&& (2 ^ n - 1) := by
  rw [takeBits_eq s b n h, Nat.shiftRight_eq_div_pow, Nat.and_two_pow_sub_one_eq_mod]

/-- R44: eleven stream bits fit an index register. -/
theorem ofNat_takeBits_toNat (s : List Byte) (b : Nat) :
    (BitVec.ofNat 11 (takeBits s b 11)).toNat = takeBits s b 11 := by
  rw [BitVec.toNat_ofNat, Nat.mod_eq_of_lt (takeBits_lt s b 11)]

/-- Settles O43: the formula of R154 by `takeBits_eq_shiftRight_and`, its condition by
`lt_groupCount_iff`. -/
theorem groupIsAFieldOfTheBuffer : Obligations.GroupIsAFieldOfTheBuffer := by
  intro cb g
  refine ⟨fun hfits => ⟨_, groupOf_ok cb g hfits, ofNat_takeBits_toNat cb (11 * g), ?field⟩,
    groupOf_error cb g, ?count⟩
  case field =>
    exact (ofNat_takeBits_toNat cb (11 * g)).trans (takeBits_eq_shiftRight_and hfits)
  case count =>
    intro len hlen
    rw [lt_groupCount_iff, bitlen, hlen]

/-! ## A group as a fixed window of the 264-bit vector (R158) -/

theorem intOf_lt_two_pow_bitlen (s : List Byte) : intOf s < 2 ^ bitlen s := by
  rw [bitlen, pow_mul]
  exact intOf_lt s

/-- R9: a vector as wide as the byte string holds its integer. -/
theorem ofNat_intOf_toNat {s : List Byte} {n : Nat} (h : bitlen s = n) :
    (BitVec.ofNat n (intOf s)).toNat = intOf s := by
  rw [BitVec.toNat_ofNat, ← h, Nat.mod_eq_of_lt (intOf_lt_two_pow_bitlen s)]

/-- R158: a group of a whole 33-byte string is its window of the string's bits. -/
theorem groupOf_eq_wiredWindow {v : List Byte} {g : Nat} (hlen : v.length = 33)
    (hg : 11 * g + 11 ≤ 264) :
    groupOf v g = .ok (wiredWindow (BitVec.ofNat 264 (intOf v)) g) := by
  have hbits : bitlen v = 264 := by rw [bitlen, hlen]
  have hstart : 264 - 11 * g - 11 = 253 - 11 * g := by omega
  rw [groupOf_ok v g (by omega), wiredWindow]
  congr 1
  apply BitVec.eq_of_toNat_eq
  rw [ofNat_takeBits_toNat, takeBits_eq v _ _ (by omega), hbits, hstart,
    BitVec.extractLsb'_toNat, ofNat_intOf_toNat hbits, Nat.shiftRight_eq_div_pow]

/-- Settles O45: the filling does not touch a group below the count, and with it the string has 33
bytes. -/
theorem multiplexerAsWiring : Obligations.MultiplexerAsWiring := by
  intro msg fill d0 g hlen hg
  rw [lt_groupCount_iff] at hg
  have hfits : 11 * g + 11 ≤ bitlen (msg ++ [d0]) := by simpa [bitlen] using hg
  have hwhole : (msg ++ [d0] ++ fill).length = 33 := by
    rw [List.length_append, List.length_append, List.length_singleton, hlen]
  calc groupOf (msg ++ [d0]) g
      = groupOf (msg ++ [d0] ++ fill) g := (groupOf_append_left fill hfits).symm
    _ = .ok (wiredWindow (BitVec.ofNat 264 (intOf (msg ++ [d0] ++ fill))) g) :=
        groupOf_eq_wiredWindow hwhole (by omega)
    _ = .ok (wiredWindow (wiredVector msg d0 fill) g) := by
        rw [wiredVector, List.take_of_length_le hwhole.le]

/-! ## The extractor and the multiplexer (R153, R155, R159) -/

section

variable {b : Block} {k : Nat}

/-- R153: with a valid digest `ExecGROUPS` leaves every group below the count in its register and 0
in the registers above. -/
theorem procGroups_idx (hdv : b.dv = true) : ∃ b', procGroups b = .ok b' ∧
    ∀ g (h : g < 24), (g < groupCount b.msgLen.toNat → groupOf b.concatBuffer g = .ok b'.idx[g]) ∧
      (groupCount b.msgLen.toNat ≤ g → b'.idx[g] = 0#11) := by
  obtain ⟨vs, hproc, hlen, hgroup⟩ := procGroups_ok b hdv
  refine ⟨_, hproc, fun g h => ?_⟩
  simp only [Block.writeIndices_idx, fillVector_getElem]
  exact ⟨hgroup g, fun hge => List.getD_eq_default _ _ (hlen.trans_le hge)⟩

/-- R155: with a valid digest `ExecGROUP(k)` selects a group below the count. -/
theorem procGroup_of_lt_groupCount (hdv : b.dv = true) (hk : k < groupCount b.msgLen.toNat) :
    ∃ v, groupOf b.concatBuffer k = .ok v ∧ procGroup k b = .ok (b.writeGroupSelect v) := by
  rw [lt_groupCount_iff, ← Block.bitlen_concatBuffer] at hk
  obtain ⟨hno, -⟩ | ⟨-, hpast, -⟩ | ⟨-, -, hok⟩ := procGroup_cases k b
  · simp [hdv] at hno
  · omega
  · exact hok

/-- R155: with a valid digest `ExecGROUP(k)` faults from the count on. -/
theorem procGroup_of_groupCount_le (hdv : b.dv = true) (hk : groupCount b.msgLen.toNat ≤ k) :
    procGroup k b = .fault .bitRead (BitVec.ofNat 32 k) := by
  rw [← not_lt, lt_groupCount_iff, ← Block.bitlen_concatBuffer] at hk
  obtain ⟨hno, -⟩ | ⟨-, -, hfault⟩ | ⟨-, hfits, -⟩ := procGroup_cases k b
  · simp [hdv] at hno
  · exact hfault
  · exact absurd hfits hk

end

/-- Settles O32: both commands answer `groupOf` of the same buffer. -/
theorem groupAgreesWithGroups : Obligations.GroupAgreesWithGroups := by
  intro s hdv hcap
  obtain ⟨b', hgroups, hidx⟩ := procGroups_idx hdv
  refine ⟨_, exec_eq .groups s, fun k _ => ⟨_, exec_eq (.group k) s, ?below, ?above⟩⟩
  case below =>
    intro hk
    have hk24 : k < 24 := by
      have hfits := (lt_groupCount_iff _ _).mp hk
      omega
    obtain ⟨v, hv, hgroup⟩ := procGroup_of_lt_groupCount hdv hk
    have hsame : b'.idx[k] = v := Except.ok.inj (((hidx k hk24).1 hk).symm.trans hv)
    refine ⟨hk24, ?_, ?_⟩ <;> simp [procOf, hgroups, hgroup, hsame]
  case above =>
    intro hk
    have hgroup := procGroup_of_groupCount_le hdv hk
    refine ⟨?_, ?_, fun hk24 => ?_⟩
    · simp [procOf, hgroup]
    · simp [procOf, hgroup, CmdFault.code]
    · simpa [procOf, hgroups] using (hidx k hk24).2 hk

end Sys2Proof.Machine

/-! # HMAC from precomputed chaining values (spec/42_kdf.md R175, R179, R181, R182) -/

namespace Sys2Proof.Machine

/-- R125, R175: the padding after the message depends on a leading part of it by its length only. -/
theorem padMessage_append (c blockBytes lenBytes : Nat) {p q : List Byte} (rest : List Byte)
    (h : p.length = q.length) :
    padMessage c blockBytes lenBytes (p ++ rest) =
      p ++ (padMessage c blockBytes lenBytes (q ++ rest)).drop q.length := by
  simp [padMessage, h]

/-- R176: a block of 128 bytes is sixteen message words. -/
theorem words64_length_of_block {p : List Byte} (h : p.length = 128) : (words64 p).length = 16 := by
  rw [words64_length, h]

/-- R176, R179: absorbing a byte string that begins with a block is compressing the block and
absorbing the bytes after it. -/
theorem absorbBlocks_words64_append (params : HashParams 64) (hv : HashVars 64) {p : List Byte}
    (tail : List Byte) (h : p.length = 128) :
    absorbBlocks params ((p ++ tail).length / 128) hv (words64 (p ++ tail)) =
      absorbBlocks params (tail.length / 128) (compress params hv (words64 p)) (words64 tail) := by
  have hblocks : (p ++ tail).length / 128 = tail.length / 128 + 1 := by
    rw [List.length_append, h]
    omega
  have hwords := words64_length_of_block h
  rw [hblocks, absorbBlocks, words64_append p tail 16 h, List.take_left' hwords,
    List.drop_left' hwords]

/-- R182: the hash of a message that begins with a whole block, started after that block. -/
theorem sha512_append_of_block {p : List Byte} (rest : List Byte) (h : p.length = 128) :
    sha512 (p ++ rest) = sha512After (compress512 iv512 (words64 p)) rest := by
  have hpad : pad512 (p ++ rest) = p ++ (pad512 (zeros 128 ++ rest)).drop 128 :=
    padMessage_append 111 128 16 rest (q := zeros 128) h
  rw [sha512, sha512State, hpad, absorbBlocks_words64_append _ _ _ h]
  rfl

/-- R181, R182: the hash of a message that begins with the key block under a pad. -/
theorem sha512After_padState {pad : List Byte} (key rest : List Byte) (hpad : pad.length = 128) :
    sha512After (padState key pad) rest = sha512 (xorBytes (keyBlock key) pad ++ rest) :=
  (sha512_append_of_block rest (by simp [hpad])).symm

/-- R182: both hashes of HMAC begin with the key block under their pad. -/
theorem hmac512Shortcut_padState (key : List Byte) :
    hmac512Shortcut (padState key ipad) (padState key opad) = hmac512 key := by
  funext text
  rw [hmac512Shortcut, sha512After_padState _ _ ipad_length, sha512After_padState _ _ opad_length,
    hmac512]

/-- Settles O47: the key derivation uses HMAC only as a function of the text, and by
`hmac512Shortcut_padState` the two are one function. -/
theorem precomputedPadsAgree : Obligations.PrecomputedPadsAgree := by
  refine ⟨fun key text => congrFun (hmac512Shortcut_padState key) text, fun pwd pass => ?kdf⟩
  case kdf => simp only [kdfShortcut, kdf, hmac512Shortcut_padState]

end Sys2Proof.Machine

/-! # The causes of an access fault (spec/60_exceptions.md R212) -/

namespace Sys2Proof.Machine

/-! ## An offset with a register is that register's own (R22) -/

theorem regInRun_eq_some {count n : Nat} {mk : Fin count → Reg} {r : Reg}
    (h : regInRun count mk n = some r) : ∃ j : Fin count, mk j = r ∧ j.val = n := by
  unfold regInRun at h
  split at h
  next hn => exact ⟨⟨n, hn⟩, Option.some.inj h, rfl⟩
  next => cases h

/-- R22: a register found in the run that begins at word `lo` stands at its word number's offset. -/
theorem offset_of_regInRun {count lo n : Nat} {mk : Fin count → Reg} {r : Reg}
    (h : regInRun count mk (n - lo) = some r) (hlo : ¬ n < lo)
    (hoff : ∀ j, (mk j).offset = BitVec.ofNat 12 (4 * lo + 4 * j)) :
    r.offset = BitVec.ofNat 12 (4 * n) := by
  obtain ⟨j, rfl, hj⟩ := regInRun_eq_some h
  have hn : 4 * lo + 4 * j.val = 4 * n := by omega
  rw [hoff, hn]

/-- R22: the register at a word number stands at four times that number. -/
theorem offset_of_regAtWord {n : Nat} {r : Reg} (h : regAtWord n = some r) :
    r.offset = BitVec.ofNat 12 (4 * n) := by
  unfold regAtWord at h
  split_ifs at h with hword hmsg hdigest hidx hseed hsalt
  · interval_cases n <;> cases h <;> rfl
  · exact offset_of_regInRun h hword fun _ => rfl
  · exact offset_of_regInRun h hmsg fun _ => rfl
  · exact offset_of_regInRun h hdigest fun _ => rfl
  · exact offset_of_regInRun h hidx fun _ => rfl
  · exact offset_of_regInRun h hseed fun _ => rfl
  · exact offset_of_regInRun h hsalt fun _ => rfl

/-- R22: an offset holds no register but the one that stands there. -/
theorem eq_offset_of_regAt {off : Offset} {r : Reg} (h : regAt off = some r) : off = r.offset := by
  unfold regAt at h
  split_ifs at h with halign
  rw [offset_of_regAtWord h]
  exact eq_ofNat_of_toNat_eq (Nat.mul_div_cancel' (Nat.dvd_of_mod_eq_zero halign)).symm

/-! ## The causes of reads and writes alike: AF1 and AF2 -/

section
variable {off : Offset} {size : Nat}

/-- R212: an access that AF1 and AF2 leave is a 4-byte access at some register's offset. -/
theorem access_cases (off : Offset) (size : Nat) :
    (size ≠ 4 ∨ off.toNat % 4 ≠ 0 ∨ regAt off = none) ∨ ∃ r : Reg, size = 4 ∧ off = r.offset := by
  by_cases hsize : size = 4
  · cases hreg : regAt off with
    | none => exact .inl (.inr (.inr rfl))
    | some r => exact .inr ⟨r, hsize, eq_offset_of_regAt hreg⟩
  · exact .inl (.inl hsize)

/-- R212 AF1, AF2: such an access is refused for the same cause in both directions. -/
theorem access_refused (h : size ≠ 4 ∨ off.toNat % 4 ≠ 0 ∨ regAt off = none) :
    ∃ c, ∀ b, memRead b off size = .error c ∧ ∀ v, memWrite b off size v = .error c := by
  cases hs : legalShape off size with
  | false =>
    exact ⟨_, fun b => ⟨memRead_of_illegalShape b hs, fun v => memWrite_of_illegalShape b v hs⟩⟩
  | true =>
    have hnone : regAt off = none := by simp_all [legalShape]
    exact ⟨.reservedOffset, by simp [memRead, memWrite, hs, hnone]⟩

end

/-! ## The causes of writes alone: AF3 to AF7 -/

section
variable {b : Block} {r : Reg} {v : Word}

/-- R212: a refused register write has one of the causes AF3 to AF7, in the order written there. -/
theorem writeReg_error {c : AccessCause} (h : writeReg b r v = .error c) :
    r.readOnly = true ∨ (r = .cmd ∧ b.busy = true) ∨ (r = .cmd ∧ b.err = true) ∨
      (b.busy = true ∧ r.isInput = true) ∨ ∃ cap ∈ r.capacity, cap < v.toNat := by
  by_contra hnone
  push Not at hnone
  obtain ⟨hro, hcmdBusy, hcmdErr, hinput, hcap⟩ := hnone
  suffices haccepted : ∃ b', writeReg b r v = .ok b' by
    obtain ⟨b', hb'⟩ := haccepted
    cases h.symm.trans hb'
  cases r with
  | status | ctrl => exact ⟨_, rfl⟩
  | cmd => exact ⟨_, writeReg_cmd (by simpa using hcmdBusy rfl) (by simpa using hcmdErr rfl)⟩
  | msgLen | pwdLen | saltLen | msg _ | salt _ | pwd _ =>
    exact writeReg_input_idle rfl (by simpa using fun hbusy => hinput hbusy rfl) hcap
  | errcode | errinfo | ngroups | gsel | digest _ | idx _ | seed _ => exact absurd rfl hro

/-- R212: an accepted register write has none of the causes AF3 to AF7. -/
theorem writeReg_ok_no_cause {b' : Block} (h : writeReg b r v = .ok b') :
    r.readOnly = false ∧ (r = .cmd → b.busy = false ∧ b.err = false) ∧
      (r.isInput = true → b.busy = false) ∧ ∀ cap ∈ r.capacity, v.toNat ≤ cap := by
  have not_refused {p : Prop} (hp : p → ∃ c, writeReg b r v = .error c) : ¬ p := fun hpp => by
    obtain ⟨c, hc⟩ := hp hpp
    cases h.symm.trans hc
  refine ⟨readOnly_eq_false_of_writeReg_ok h, ?cmd, ?input, ?capacity⟩
  case cmd =>
    rintro rfl
    simpa using not_refused writeReg_cmd_locked
  case input =>
    intro hr
    simpa using not_refused fun hbusy => ⟨_, writeReg_input_busy hr hbusy⟩
  case capacity =>
    intro cap hr
    simpa using not_refused (writeReg_above_capacity hr)

/-- R66, R212 AF7: a length above its capacity, by the offsets of the three length registers. -/
theorem offset_of_above_capacity {cap : Nat} (hr : cap ∈ r.capacity) (hv : cap < v.toNat) :
    (r.offset = 0x014#12 ∧ v.toNat > 32) ∨ (r.offset = 0x018#12 ∧ v.toNat > 1024) ∨
      (r.offset = 0x01C#12 ∧ v.toNat > 256) := by
  cases r with
  | msgLen => cases hr; exact .inl ⟨rfl, hv⟩
  | pwdLen => cases hr; exact .inr (.inl ⟨rfl, hv⟩)
  | saltLen => cases hr; exact .inr (.inr ⟨rfl, hv⟩)
  | _ => cases hr

end

/-- Settles O17: AF1 and AF2 leave the accesses to a register, of which no read is refused, and a
write exactly for one of AF3 to AF7. -/
theorem accessFaultCausesAreComplete : Obligations.AccessFaultCausesAreComplete := by
  refine ⟨fun s off size v => ?write, fun s off size => ?read⟩
  case write =>
    obtain hbad | ⟨r, rfl, rfl⟩ := access_cases off size
    · obtain ⟨c, hc⟩ := access_refused hbad
      exact .inl ⟨hbad.imp_right (Or.imp_right .inl), step_write_error ((hc s.block).2 v)⟩
    cases hwrite : writeReg s.block r v with
    | error c =>
      refine .inl ⟨.inr (.inr (.inr ?_)), step_writeReg_error hwrite⟩
      obtain hro | ⟨rfl, hbusy⟩ | ⟨rfl, herr⟩ | ⟨hbusy, hin⟩ | ⟨cap, hr, hv⟩ := writeReg_error hwrite
      · exact .inl ⟨r, regAt_offset r, hro⟩
      · exact .inr (.inl ⟨rfl, hbusy⟩)
      · exact .inr (.inr (.inl ⟨rfl, herr⟩))
      · exact .inr (.inr (.inr (.inl ⟨hbusy, r, regAt_offset r, hin⟩)))
      · exact .inr (.inr (.inr (.inr (offset_of_above_capacity hr hv))))
    | ok b =>
      obtain ⟨hro, hcmd, hinput, hcap⟩ := writeReg_ok_no_cause hwrite
      refine .inr ⟨rfl, r.offset_aligned, ⟨r, regAt_offset r, hro, hcmd, hinput, ?_, ?_, ?_⟩,
        b, step_writeReg_ok hwrite⟩
      · rintro rfl; exact hcap _ rfl
      · rintro rfl; exact hcap _ rfl
      · rintro rfl; exact hcap _ rfl
  case read =>
    obtain hbad | ⟨r, rfl, rfl⟩ := access_cases off size
    · obtain ⟨c, hc⟩ := access_refused hbad
      exact .inl ⟨hbad, step_read_error (hc s.block).1⟩
    · exact .inr ⟨rfl, r.offset_aligned, r, regAt_offset r, step_readReg s r⟩

end Sys2Proof.Machine

/-! # Reset (spec/70_reset_and_hazards.md R240, spec/10_state.md R54) -/

namespace Sys2Proof.Machine

/-- R240: a reset event replaces the block, whatever the block was. -/
theorem step_reset (s : State) : step (s.withNext .reset) = .next (resetStep s) := rfl

/-- R54: the arrays are filled with zeros and every other element is 0, so each register reads 0. -/
theorem regValue_reset (r : Reg) : Block.reset.regValue r = 0#32 := by
  cases r with
  | cmd | errinfo => rfl
  | status | ctrl => decide
  | errcode | msgLen | pwdLen | saltLen | ngroups | gsel => decide
  | msg j | digest j | seed j | salt j | pwd j => exact Vector.getElem_replicate _
  | idx i => exact congrArg (BitVec.setWidth 32) (Vector.getElem_replicate _)

/-- R96: what acceptance clears are results; `BUSY` is set for every command. -/
@[simp] theorem accept_busy (b : Block) (w : Word) (i : Instr) : (accept b w i).busy = true := by
  cases i <;> rfl

@[simp] theorem accept_cur (b : Block) (w : Word) (i : Instr) : (accept b w i).cur = w := by
  cases i <;> rfl

/-- Settles O49: the block after reset is idle without a fault, so neither lock of `CMD` holds. -/
theorem resetFromAnyState : Obligations.ResetFromAnyState := by
  refine fun s => ⟨step_reset s, regValue_reset, rfl, regValue_reset .status, fun w i hdecode => ?_⟩
  refine ⟨accept Block.reset w i, ?accepted, accept_busy _ w i, accept_cur _ w i⟩
  rw [step_write_cmd w rfl rfl, issue_of_decode hdecode]
  rfl

end Sys2Proof.Machine

/-! # The decoder is the inverse of the encoder (spec/30_encoding.md R91, R92, R104) -/

namespace Sys2Proof

/-- Settles O1: both directions are read off the three fields of the word. -/
theorem decodeAndEncodeAreInverse : Obligations.DecodeAndEncodeAreInverse :=
  decode_eq_ok_iff

/-- R92: `legalWord`, the field test of the invariant, accepts exactly the words that decode. -/
theorem legalWord_iff_exists_decode (w : Word) : legalWord w = true ↔ ∃ i, decode w = .ok i := by
  rw [exists_decode_iff_fields]
  simp [legalWord, and_comm]

theorem legalWord_of_decode {w : Word} {i : Instr} (h : decode w = .ok i) : legalWord w = true :=
  (legalWord_iff_exists_decode w).mpr ⟨i, h⟩

/-- R90: the opcode 0x03 is that of `GROUP` alone. -/
theorem eq_group_of_opField {w : Word} {i : Instr} (h : decode w = .ok i)
    (hop : opField w = 0x03#8) : ∃ k, i = .group k := by
  obtain ⟨-, -, -, hi⟩ := fields_of_decode_eq_ok h
  rw [hop] at hi
  cases i with
  | group k => exact ⟨k, rfl⟩
  | nop | hash | groups | encode | seed | clr => simp [Instr.opcode] at hi

/-- R98: the operand field of a word that decodes to `GROUP k` is `k`. -/
theorem kField_of_decode_group {w : Word} {k : Nat} (h : decode w = .ok (.group k)) :
    k < 256 ∧ (kField w).toNat = k := by
  obtain ⟨hwf, -, hk, -⟩ := fields_of_decode_eq_ok h
  have hlt : k < 256 := of_decide_eq_true hwf
  refine ⟨hlt, ?_⟩
  rw [hk, Instr.operand, BitVec.toNat_ofNat, Nat.mod_eq_of_lt hlt]

end Sys2Proof

/-! # Lengths of the key derivation and of the indices (spec/42_kdf.md R189, spec/41_bitgroup.md R152) -/

namespace Sys2Proof.Machine

/-- R189: the derived key has 64 bytes. -/
@[simp] theorem kdf_length (pwd pass : List Byte) : (kdf pwd pass).length = 64 :=
  prfIterate_length _ _ _ _ _ (hmac512_length pwd) (hmac512_length _ _)

/-- R153: no message that fits its buffer has more than 24 groups. -/
theorem groupCount_le_nidx {len : Nat} (h : len ≤ Config.msgCap) :
    groupCount len ≤ Config.nidx := by
  simp only [groupCount, Config.groupBits, Config.msgCap, Config.nidx] at h ⊢
  omega

/-- R40: the count of a message that fits its buffer fits `NGROUPS`. -/
theorem ofNat_groupCount_toNat {len : Nat} (h : len ≤ Config.msgCap) :
    (BitVec.ofNat 5 (groupCount len)).toNat = groupCount len := by
  have hcount := groupCount_le_nidx h
  rw [BitVec.toNat_ofNat, Nat.mod_eq_of_lt (by simp only [Config.nidx] at hcount; omega)]

end Sys2Proof.Machine

/-! # The invariants: what each operation of the port and the engine keeps (spec/10_state.md R51)

An operation's lemma restates the fields it touches; the rest come from the block before. The clearing
and the writes of results are stated for an idle block, where the fields about a command in execution
say nothing: acceptance and completion are idle blocks with those operations before or after. -/

namespace Sys2Proof.Machine

/-- R214: the codes of the command faults are 1, 2 and 3. -/
theorem CmdFault.code_le (f : CmdFault) : f.code.toNat ≤ 3 := by
  cases f <;> decide

theorem CmdFault.code_ne_zero (f : CmdFault) : f.code ≠ 0#8 := by
  cases f <;> decide

/-- The fields about a command in execution ask nothing of an idle block. -/
theorem absurd_of_idle {b : Block} {p : Prop} (hidle : b.busy = false) (hbusy : b.busy = true) : p :=
  absurd (hidle.symm.trans hbusy) Bool.false_ne_true

theorem BlockInv.reset : BlockInv Block.reset := by
  constructor <;>
    simp [Block.reset, Config.msgCap, Config.pwdCap, Config.saltCap, Config.nidx, legalWord,
      rsvField, kField, opField]

/-- Settles O51: every flag is 0, so the fields about valid results say nothing. -/
theorem invariantsHoldAtReset : Obligations.InvariantsHoldAtReset := BlockInv.reset

namespace BlockInv

variable {b : Block}

/-! ## The flags and the fault registers -/

theorem writeCtrl (h : BlockInv b) (v : Word) : BlockInv (writeCtrl b v) := { h with }

theorem ackDone (h : BlockInv b) : BlockInv b.ackDone := { h with busy_done := fun _ => rfl }

theorem ackFault (h : BlockInv b) : BlockInv b.ackFault :=
  { h with
    errcode_le := Nat.zero_le 3
    err_iff := by simp
    errinfo_zero := fun _ => rfl
    busy_err := fun _ => rfl }

theorem writeStatus (h : BlockInv b) (v : Word) : BlockInv (writeStatus b v) := by
  unfold Machine.writeStatus
  cases v.getLsbD 1 <;> cases v.getLsbD 2
  · exact h
  · exact h.ackFault
  · exact h.ackDone
  · exact h.ackDone.ackFault

/-- R213: taking a fault is for an idle block, since `ERR` is 0 during execution. -/
theorem raiseFault (h : BlockInv b) (hidle : b.busy = false) (f : CmdFault) (info : Word) :
    BlockInv (b.raiseFault f info) :=
  { h with
    errcode_le := f.code_le
    err_iff := ⟨fun _ => f.code_ne_zero, fun _ => rfl⟩
    errinfo_zero := fun hcode => absurd hcode f.code_ne_zero
    busy_err := absurd_of_idle hidle }

theorem finish (h : BlockInv b) : BlockInv b.finish :=
  { h with busy_err := nofun, busy_done := nofun, busy_cleared := nofun }

/-! ## Clearing and new inputs -/

/-- R49: any message within the capacity may be put in, for no result of the side is left. -/
theorem invalM (h : BlockInv b) (hidle : b.busy = false) (m : Vector Word 8) {len : BitVec 6}
    (hlen : len.toNat ≤ Config.msgCap) :
    BlockInv { b with msg := m, msgLen := len }.invalM :=
  { h with
    msgLen_le := hlen
    ngroups_le := Nat.zero_le _
    digest_valid := nofun
    digest_zero := fun _ => rfl
    iv_dv := nofun
    ngroups_valid := nofun
    idx_valid := nofun
    idx_above := fun _ _ => Vector.getElem_replicate _
    idx_zero := fun _ => ⟨rfl, rfl⟩
    gv_dv := nofun
    gsel_valid := nofun
    gsel_cur := nofun
    gsel_zero := fun _ => rfl
    busy_cleared := absurd_of_idle hidle }

/-- R50: any password and passphrase within the capacities may be put in, for no seed is left. -/
theorem invalK (h : BlockInv b) (hidle : b.busy = false) (p : Vector Word 256) {plen : BitVec 11}
    (hplen : plen.toNat ≤ Config.pwdCap) (s : Vector Word 64) {slen : BitVec 9}
    (hslen : slen.toNat ≤ Config.saltCap) :
    BlockInv { b with pwd := p, pwdLen := plen, salt := s, saltLen := slen }.invalK :=
  { h with
    pwdLen_le := hplen
    saltLen_le := hslen
    seed_valid := nofun
    seed_zero := fun _ => rfl
    busy_cleared := absurd_of_idle hidle }

theorem clearIndices (h : BlockInv b) (hidle : b.busy = false) : BlockInv b.clearIndices :=
  { h with
    ngroups_le := Nat.zero_le _
    iv_dv := nofun
    ngroups_valid := nofun
    idx_valid := nofun
    idx_above := fun _ _ => Vector.getElem_replicate _
    idx_zero := fun _ => ⟨rfl, rfl⟩
    busy_cleared := absurd_of_idle hidle }

theorem clearGroupSelect (h : BlockInv b) (hidle : b.busy = false) :
    BlockInv b.clearGroupSelect :=
  { h with
    gv_dv := nofun
    gsel_valid := nofun
    gsel_cur := nofun
    gsel_zero := fun _ => rfl
    busy_cleared := absurd_of_idle hidle }

theorem clearAll (h : BlockInv b) (hidle : b.busy = false) : BlockInv b.clearAll :=
  (h.invalM hidle (Vector.replicate 8 0#32) (Nat.zero_le _)).invalK hidle
    (Vector.replicate 256 0#32) (Nat.zero_le _) (Vector.replicate 64 0#32) (Nat.zero_le _)

/-! ## Acceptance (R96) -/

theorem acceptClears (h : BlockInv b) (hidle : b.busy = false) (i : Instr) :
    BlockInv (acceptClears b i) := by
  cases i with
  | nop | clr => exact h
  | hash | encode => exact h.invalM hidle b.msg h.msgLen_le
  | groups => exact h.clearIndices hidle
  | group k => exact h.clearGroupSelect hidle
  | seed => exact h.invalK hidle b.pwd h.pwdLen_le b.salt h.saltLen_le

/-- R96: a command may be put into `CUR` once its results are cleared and no fault is pending. -/
theorem latch {w : Word} {i : Instr} (h : BlockInv b) (hclear : b.err = false)
    (hdecode : decode w = .ok i) (hres : b.resultsCleared i) :
    BlockInv { b with cur := w, busy := true, done := false } :=
  { h with
    gsel_cur := fun hgv hop => by
      obtain ⟨k, rfl⟩ := eq_group_of_opField hdecode hop
      exact absurd (hres.symm.trans hgv) Bool.false_ne_true
    cur_legal := legalWord_of_decode hdecode
    busy_err := fun _ => hclear
    busy_done := fun _ => rfl
    busy_cleared := fun _ j hj => Except.ok.inj (hdecode.symm.trans hj) ▸ hres }

theorem accept {w : Word} {i : Instr} (h : BlockInv b) (hidle : b.busy = false)
    (hclear : b.err = false) (hdecode : decode w = .ok i) : BlockInv (accept b w i) := by
  have hlatch := fun herr hres => (h.acceptClears hidle i).latch (i := i) herr hdecode hres
  cases i with
  | nop | clr => exact hlatch hclear trivial
  | hash | encode => exact hlatch hclear ⟨rfl, rfl, rfl⟩
  | groups | group k | seed => exact hlatch hclear rfl

theorem issue (h : BlockInv b) (hidle : b.busy = false) (hclear : b.err = false) (w : Word) :
    BlockInv (issue b w) := by
  rcases issue_cases b w with ⟨i, hdecode, heq⟩ | ⟨-, heq⟩
  · exact heq ▸ h.accept hidle hclear hdecode
  · exact heq ▸ h.raiseFault hidle .illegalCmd w

/-! ## Host writes (R70) -/

theorem writeReg_ok {b' : Block} {r : Reg} {v : Word} (h : BlockInv b)
    (hw : writeReg b r v = .ok b') : BlockInv b' := by
  have length_le {n cap : Nat} (hv : v.toNat ≤ cap) (hcap : cap < 2 ^ n) :
      (v.setWidth n).toNat ≤ cap := by
    rw [BitVec.toNat_setWidth]
    exact (Nat.mod_le _ _).trans hv
  rcases Machine.writeReg_ok hw with ⟨-, rfl⟩ | ⟨-, rfl⟩ | ⟨-, hidle, hclear, rfl⟩ |
    ⟨-, hidle, hv, rfl⟩ | ⟨-, hidle, hv, rfl⟩ | ⟨-, hidle, hv, rfl⟩ | ⟨j, -, hidle, rfl⟩ |
    ⟨j, -, hidle, rfl⟩ | ⟨j, -, hidle, rfl⟩
  · exact h.writeStatus v
  · exact h.writeCtrl v
  · exact h.issue hidle hclear v
  · exact h.invalM hidle b.msg (length_le hv (by decide))
  · exact h.invalK hidle b.pwd (length_le hv (by decide)) b.salt h.saltLen_le
  · exact h.invalK hidle b.pwd h.pwdLen_le b.salt (length_le hv (by decide))
  · exact h.invalM hidle _ h.msgLen_le
  · exact h.invalK hidle b.pwd h.pwdLen_le _ h.saltLen_le
  · exact h.invalK hidle _ h.pwdLen_le b.salt h.saltLen_le

/-! ## Completion (R97) -/

/-- R140: the new digest is that of the message; no indices and no group of an old one are left. -/
theorem writeDigest (h : BlockInv b) (hidle : b.busy = false) (hdv : b.dv = false) :
    BlockInv b.writeDigest :=
  { h with
    digest_valid := fun _ => fillVector_toList _ _ _ (by simp)
    digest_zero := nofun
    iv_dv := fun _ => rfl
    idx_valid := fun hiv => absurd (hdv.symm.trans (h.iv_dv hiv)) Bool.false_ne_true
    gv_dv := fun _ => rfl
    gsel_valid := fun hgv => absurd (hdv.symm.trans (h.gv_dv hgv)) Bool.false_ne_true
    gsel_cur := fun hgv => absurd (hdv.symm.trans (h.gv_dv hgv)) Bool.false_ne_true
    busy_cleared := absurd_of_idle hidle }

/-- R153: every group of the concatenated buffer and their count. -/
theorem writeIndices {vs : List Index} (h : BlockInv b) (hidle : b.busy = false)
    (hdv : b.dv = true) (hlen : vs.length = groupCount b.msgLen.toNat)
    (hvs : ∀ g, g < groupCount b.msgLen.toNat → groupOf b.concatBuffer g = .ok (vs.getD g 0#11)) :
    BlockInv (b.writeIndices (groupCount b.msgLen.toNat) vs) := by
  have hcount := ofNat_groupCount_toNat h.msgLen_le
  exact { h with
    ngroups_le := by
      rw [Block.writeIndices_ngroups, hcount]
      exact groupCount_le_nidx h.msgLen_le
    iv_dv := fun _ => hdv
    ngroups_valid := fun _ => hcount
    idx_valid := fun _ i hi => by
      rw [Block.writeIndices_ngroups, hcount] at hi
      simp only [Block.writeIndices_concatBuffer, Block.writeIndices_idx, fillVector_getElem]
      exact hvs i hi
    idx_above := fun i hi => by
      rw [Block.writeIndices_ngroups, hcount] at hi
      simp only [Block.writeIndices_idx, fillVector_getElem]
      exact List.getD_eq_default _ _ (hlen.trans_le hi)
    idx_zero := nofun
    busy_cleared := absurd_of_idle hidle }

/-- R155: the group that `CUR` chose. -/
theorem writeGroupSelect {k : Nat} {v : Index} (h : BlockInv b) (hidle : b.busy = false)
    (hdv : b.dv = true) (hdecode : decode b.cur = .ok (.group k))
    (hv : groupOf b.concatBuffer k = .ok v) : BlockInv (b.writeGroupSelect v) := by
  obtain ⟨hlt, hk⟩ := kField_of_decode_group hdecode
  exact { h with
    gv_dv := fun _ => hdv
    gsel_valid := fun _ => ⟨k, hlt, hv⟩
    gsel_cur := fun _ _ => hk.symm ▸ hv
    gsel_zero := nofun
    busy_cleared := absurd_of_idle hidle }

/-- R191: the seed is that of the password and the passphrase. -/
theorem writeSeed (h : BlockInv b) (hidle : b.busy = false) : BlockInv b.writeSeed :=
  { h with
    seed_valid := fun _ => fillVector_toList _ _ _ (by simp [words32_length])
    seed_zero := nofun
    busy_cleared := absurd_of_idle hidle }

/-- R97: the writes of a command and of its fault may be done on the idle block, for none of them
touches or reads `BUSY` and `DONE`. -/
theorem completeWith {i : Instr} (h : BlockInv b) (hbusy : b.busy = true)
    (hdecode : decode b.cur = .ok i) : BlockInv (completeWith b (procOf i b)) := by
  have hres := h.busy_cleared hbusy i hdecode
  have hfault (f : CmdFault) (info : Word) : BlockInv (b.raiseFault f info).finish :=
    h.finish.raiseFault rfl f info
  cases i with
  | nop => exact h.finish
  | hash => exact h.finish.writeDigest rfl hres.1
  | groups =>
    cases hdv : b.dv with
    | false => rw [procOf, procGroups_noDigest b hdv]; exact hfault _ _
    | true =>
      obtain ⟨vs, hproc, hlen, hvs⟩ := procGroups_ok b hdv
      rw [procOf, hproc]
      exact h.finish.writeIndices rfl hdv hlen hvs
  | group k =>
    rcases procGroup_cases k b with ⟨-, hproc⟩ | ⟨-, -, hproc⟩ | ⟨hdv, -, v, hv, hproc⟩
    · rw [procOf, hproc]; exact hfault _ _
    · rw [procOf, hproc]; exact hfault _ _
    · rw [procOf, hproc]
      exact h.finish.writeGroupSelect rfl hdv hdecode hv
  | encode =>
    obtain ⟨vs, hproc, hlen, hvs⟩ := procEncode_ok b
    rw [procOf, hproc]
    exact (h.finish.writeDigest rfl hres.1).writeIndices rfl rfl hlen hvs
  | seed => exact h.finish.writeSeed rfl
  | clr => exact h.finish.clearAll rfl

end BlockInv

end Sys2Proof.Machine

/-! # Steps and runs under the invariants (spec/10_state.md R51, spec/70_reset_and_hazards.md R258) -/

namespace Sys2Proof.Machine

/-- R15: what a step does to the block: nothing, an accepted register write, reset, or the completion
of the legal command in `CUR`; with the event that does it. -/
theorem block_of_step {s t : State} (h : step s = .next t) :
    t.block = s.block ∨
    (∃ r v rest, s.pending = .write r.offset 4 v :: rest ∧ writeReg s.block r v = .ok t.block) ∨
    (∃ rest, s.pending = .reset :: rest ∧ t.block = Block.reset) ∨
    (∃ i, (s.pending = [] ∨ ∃ rest, s.pending = .engine :: rest) ∧ s.block.busy = true ∧
      decode s.block.cur = .ok i ∧ t.block = completeWith s.block (procOf i s.block)) := by
  rcases step_cases s with ⟨off, size, rest, hp, hs⟩ | ⟨off, size, v, rest, hp, hs⟩ |
    ⟨rest, hp, hs⟩ | ⟨rest, hp, hbusy, hs⟩ | ⟨rest, hp, hidle, hs⟩
  · cases hs.symm.trans h
    exact .inl rfl
  · cases hs.symm.trans h
    rcases hostWrite_cases off size v { s with pending := rest } with ⟨b, hw, heq⟩ | ⟨c, -, heq⟩
    · obtain ⟨rfl, -, r, hreg, -, hw⟩ := memWrite_ok hw
      rw [eq_offset_of_regAt hreg] at hp
      exact .inr (.inl ⟨r, v, rest, hp, by rw [heq]; exact hw⟩)
    · exact .inl (by rw [heq])
  · cases hs.symm.trans h
    exact .inr (.inr (.inl ⟨rest, hp, rfl⟩))
  · have hp : s.pending = [] ∨ ∃ rest, s.pending = .engine :: rest :=
      hp.elim (fun hp => .inr ⟨rest, hp⟩) fun hp => .inl hp.1
    rcases engineStep_cases { s with pending := rest } with ⟨i, hi, heq⟩ | ⟨-, heq⟩
    · cases (hs.trans heq).symm.trans h
      exact .inr (.inr (.inr ⟨i, hp, hbusy, hi, rfl⟩))
    · cases (hs.trans heq).symm.trans h
  · cases hs.symm.trans h
    exact .inl rfl

/-- Settles O52: the invariants are kept by each of the four things a step does to the block. -/
theorem everyStepKeepsTheInvariants : Obligations.EveryStepKeepsTheInvariants := by
  intro s t hinv hstep
  change BlockInv s.block at hinv
  change BlockInv t.block
  rcases block_of_step hstep with heq | ⟨r, v, rest, -, hw⟩ | ⟨rest, -, heq⟩ |
    ⟨i, -, hbusy, hdecode, heq⟩
  · exact heq.symm ▸ hinv
  · exact hinv.writeReg_ok hw
  · exact heq.symm ▸ BlockInv.reset
  · exact heq.symm ▸ hinv.completeWith hbusy hdecode

end Sys2Proof.Machine

/-! # What one step changes (spec/00_scope.md R15, spec/10_state.md R25 to R27, R51) -/

namespace Sys2Proof.Machine

/-! ## Where the machine stops (R97, R258) -/

@[simp] theorem completeWith_busy (b : Block) (r : ExecResult) :
    (completeWith b r).busy = false := by
  cases r <;> rfl

@[simp] theorem completeWith_done (b : Block) (r : ExecResult) :
    (completeWith b r).done = true := by
  cases r <;> rfl

/-- R97: a step answers a next state, or it is the engine's turn on an illegal word. -/
theorem step_next_or_stop (s : State) :
    (∃ t, step s = .next t) ∨
    (step s = .fault (.curNotLegal s.block.cur) ∧ s.block.busy = true ∧
      (∀ i, decode s.block.cur ≠ .ok i) ∧
      (s.pending = [] ∨ ∃ rest, s.pending = .engine :: rest)) := by
  rcases step_cases s with ⟨_, _, _, -, hs⟩ | ⟨_, _, _, _, -, hs⟩ | ⟨_, -, hs⟩ |
    ⟨rest, hp, hbusy, hs⟩ | ⟨_, -, -, hs⟩
  · exact .inl ⟨_, hs⟩
  · exact .inl ⟨_, hs⟩
  · exact .inl ⟨_, hs⟩
  · rcases engineStep_cases { s with pending := rest } with ⟨i, -, he⟩ | ⟨hi, he⟩
    · exact .inl ⟨_, hs.trans he⟩
    · exact .inr ⟨hs.trans he, hbusy, hi,
        hp.elim (fun hp => .inr ⟨rest, hp⟩) fun hp => .inl hp.1⟩
  · exact .inl ⟨_, hs⟩

/-- Settles O53: by (e) of the invariant the word in `CUR` is legal, so the one stop cannot be. -/
theorem invariantStatesNeverStop : Obligations.InvariantStatesNeverStop := by
  intro s hinv
  rcases step_next_or_stop s with hnext | ⟨-, -, hillegal, -⟩
  · exact hnext
  · obtain ⟨i, hi⟩ := (legalWord_iff_exists_decode _).mp hinv.cur_legal
    exact absurd hi (hillegal i)

/-- Settles O54: `step_next_or_stop` leaves no other outcome. -/
theorem theOnlyStopIsAnIllegalLatch : Obligations.TheOnlyStopIsAnIllegalLatch := by
  intro s
  rcases step_next_or_stop s with ⟨t, hs⟩ | ⟨hs, hbusy, hillegal, hp⟩
  · rw [hs]
    exact ⟨nofun, nofun⟩
  · rw [hs]
    refine ⟨nofun, fun f hf => ⟨(Host.Outcome.fault.inj hf).symm, hbusy, ?_, hp⟩⟩
    rw [← Bool.not_eq_true, legalWord_iff_exists_decode]
    exact not_exists.mpr hillegal

/-! ## The engine's turn (R15) -/

theorem engineTurn_of_idle {s : State} (hidle : s.block.busy = false) :
    engineTurn s = .next s := by
  simp [engineTurn, hidle]

theorem engineTurn_of_decode {s : State} {i : Instr} (hbusy : s.block.busy = true)
    (hdecode : decode s.block.cur = .ok i) : engineTurn s = exec i s := by
  simp [engineTurn, hbusy, engineStep, Block.fetchCommand, hdecode]

theorem step_engine (s : State) : step (s.withNext .engine) = engineTurn s := rfl

theorem step_of_pending_nil {s : State} (h : s.pending = []) : step s = engineTurn s := by
  rw [step, h]

/-- Settles O4: both points are the engine's turn. -/
theorem stepRunsTheDecodedCommand : Obligations.StepRunsTheDecodedCommand := by
  intro s i hbusy hdecode
  have hturn := engineTurn_of_decode hbusy hdecode
  exact ⟨fun hnil => (step_of_pending_nil hnil).trans hturn, (step_engine s).trans hturn⟩

/-- Settles O5: a step is defined by the first pending event, and the idle engine does nothing. -/
theorem stepPerformsTheNextEvent : Obligations.StepPerformsTheNextEvent := by
  intro s
  exact ⟨fun _ _ => rfl, fun _ _ _ => rfl, rfl, fun hidle => engineTurn_of_idle hidle,
    fun hidle hnil => (step_of_pending_nil hnil).trans (engineTurn_of_idle hidle)⟩

/-- R258: after its turn the engine is idle. -/
theorem busy_of_engineTurn {s t : State} (h : engineTurn s = .next t) : t.block.busy = false := by
  cases hbusy : s.block.busy with
  | false =>
    cases (engineTurn_of_idle hbusy).symm.trans h
    exact hbusy
  | true =>
    rw [engineTurn, if_pos hbusy] at h
    rcases engineStep_cases s with ⟨i, -, he⟩ | ⟨-, he⟩
    · cases he.symm.trans h
      exact completeWith_busy _ _
    · cases he.symm.trans h

/-! ## The end of a run (R260) -/

/-- R15: a step takes the first pending event, if there is one, and no other. -/
theorem pending_of_step {s t : State} (h : step s = .next t) : t.pending = s.pending.tail := by
  have tail_eq {e : Event} {rest : List Event}
      (hp : s.pending = e :: rest ∨ (s.pending = [] ∧ rest = [])) : s.pending.tail = rest := by
    rcases hp with hp | ⟨hp, rfl⟩ <;> rw [hp] <;> rfl
  rcases step_cases s with ⟨_, _, _, hp, hs⟩ | ⟨_, _, _, _, hp, hs⟩ | ⟨_, hp, hs⟩ |
    ⟨rest, hp, -, hs⟩ | ⟨_, hp, -, hs⟩
  · cases hs.symm.trans h
    rw [hp, hostRead_pending, List.tail_cons]
  · cases hs.symm.trans h
    rw [hp, hostWrite_pending, List.tail_cons]
  · cases hs.symm.trans h
    rw [hp, List.tail_cons]
    rfl
  · rcases engineStep_cases { s with pending := rest } with ⟨i, -, he⟩ | ⟨-, he⟩
    · cases (hs.trans he).symm.trans h
      exact (tail_eq hp).symm
    · cases (hs.trans he).symm.trans h
  · cases hs.symm.trans h
    exact (tail_eq hp).symm

/-- Settles O55, by induction on the pending events: each step takes one, and the step after the last
is the engine's turn. -/
theorem everyRunEnds : Obligations.EveryRunEnds := by
  intro s hinv
  induction hp : s.pending generalizing s with
  | nil =>
    obtain ⟨t, ht⟩ := invariantStatesNeverStop s hinv
    have hnil : t.pending = [] := by rw [pending_of_step ht, hp, List.tail_nil]
    have hidle := busy_of_engineTurn ((step_of_pending_nil hp).symm.trans ht)
    exact ⟨t, runSteps_succ 0 ht, ⟨hnil, hidle⟩, everyStepKeepsTheInvariants s t hinv ht⟩
  | cons e rest ih =>
    obtain ⟨t, ht⟩ := invariantStatesNeverStop s hinv
    have hrest : t.pending = rest := by rw [pending_of_step ht, hp, List.tail_cons]
    rw [List.length_cons, runSteps_succ _ ht]
    exact ih t (everyStepKeepsTheInvariants s t hinv ht) hrest

/-! ## What a register write leaves unchanged -/

/-- The six input registers are the same in both blocks (R42, R46, R47, R37 to R39). -/
def Block.sameInputs (b c : Block) : Prop :=
  b.msg = c.msg ∧ b.msgLen = c.msgLen ∧ b.pwd = c.pwd ∧ b.pwdLen = c.pwdLen ∧ b.salt = c.salt ∧
    b.saltLen = c.saltLen

/-- The command in `CUR`, `BUSY` and the fault registers are the same in both blocks. -/
def Block.sameControl (b c : Block) : Prop :=
  b.busy = c.busy ∧ b.cur = c.cur ∧ b.err = c.err ∧ b.errcode = c.errcode ∧ b.errinfo = c.errinfo

theorem writeStatus_sameInputs (b : Block) (v : Word) : (writeStatus b v).sameInputs b := by
  rw [writeStatus_eq]
  exact ⟨rfl, rfl, rfl, rfl, rfl, rfl⟩

theorem accept_sameInputs (b : Block) (w : Word) (i : Instr) : (accept b w i).sameInputs b := by
  cases i <;> exact ⟨rfl, rfl, rfl, rfl, rfl, rfl⟩

theorem issue_sameInputs (b : Block) (w : Word) : (issue b w).sameInputs b := by
  rcases issue_cases b w with ⟨i, -, he⟩ | ⟨-, he⟩
  · exact he ▸ accept_sameInputs b w i
  · exact he ▸ ⟨rfl, rfl, rfl, rfl, rfl, rfl⟩

/-- R70: an accepted write goes to an input register of an idle block and leaves the control registers,
or it leaves the inputs and goes to `STATUS`, `CTRL` or an unlocked `CMD`. -/
theorem writeReg_ok_frame {b b' : Block} {r : Reg} {v : Word} (h : writeReg b r v = .ok b') :
    (r.isInput = true ∧ b.busy = false ∧ b'.sameControl b) ∨
    (b'.sameInputs b ∧
      ((r = .status ∧ b' = writeStatus b v) ∨ (r = .ctrl ∧ b'.sameControl b) ∨
        (r = .cmd ∧ b.busy = false ∧ b.err = false ∧ b' = issue b v))) := by
  rcases writeReg_ok h with ⟨rfl, rfl⟩ | ⟨rfl, rfl⟩ | ⟨rfl, hidle, hclear, rfl⟩ |
    ⟨rfl, hidle, -, rfl⟩ | ⟨rfl, hidle, -, rfl⟩ | ⟨rfl, hidle, -, rfl⟩ | ⟨j, rfl, hidle, rfl⟩ |
    ⟨j, rfl, hidle, rfl⟩ | ⟨j, rfl, hidle, rfl⟩
  case inl => exact .inr ⟨writeStatus_sameInputs b v, .inl ⟨rfl, rfl⟩⟩
  case inr.inl =>
    exact .inr ⟨⟨rfl, rfl, rfl, rfl, rfl, rfl⟩, .inr (.inl ⟨rfl, rfl, rfl, rfl, rfl, rfl⟩)⟩
  case inr.inr.inl =>
    exact .inr ⟨issue_sameInputs b v, .inr (.inr ⟨rfl, hidle, hclear, rfl⟩)⟩
  all_goals exact .inl ⟨rfl, hidle, rfl, rfl, rfl, rfl, rfl⟩

/-- R25, R96: an accepted write sets `BUSY` and `CUR` when it is an accepted command, and leaves both
otherwise. -/
theorem busy_cur_of_writeReg_ok {b b' : Block} {r : Reg} {v : Word}
    (h : writeReg b r v = .ok b') :
    (b'.busy = b.busy ∧ b'.cur = b.cur) ∨
    (r = .cmd ∧ b.busy = false ∧ b.err = false ∧ b'.busy = true ∧ b'.cur = v ∧
      ∃ i, decode v = .ok i) := by
  rcases writeReg_ok_frame h with ⟨-, -, hbusy, hcur, -⟩ |
    ⟨-, ⟨-, rfl⟩ | ⟨-, hbusy, hcur, -⟩ | ⟨rfl, hidle, hclear, rfl⟩⟩
  · exact .inl ⟨hbusy, hcur⟩
  · rw [writeStatus_eq]
    exact .inl ⟨rfl, rfl⟩
  · exact .inl ⟨hbusy, hcur⟩
  · rcases issue_cases b v with ⟨i, hi, he⟩ | ⟨-, he⟩
    · rw [he]
      exact .inr ⟨rfl, hidle, hclear, accept_busy b v i, accept_cur b v i, i, hi⟩
    · rw [he]
      exact .inl ⟨rfl, rfl⟩

/-! ## What the commands of the message side write -/

/-- R216: without a digest both group commands answer `NO_DIGEST`. -/
theorem procOf_noDigest {i : Instr} {b : Block} (hi : i = .groups ∨ ∃ k, i = .group k)
    (hdv : b.dv = false) : procOf i b = .fault .noDigest b.cur := by
  rcases hi with rfl | ⟨k, rfl⟩
  · exact procGroups_noDigest b hdv
  · exact if_pos hdv

/-- R153: with a valid digest, the groups two blocks write are the same when their buffers are. -/
theorem procGroups_ok_pair {b c : Block} (hb : b.dv = true) (hc : c.dv = true)
    (hlen : b.msgLen = c.msgLen) (hcb : b.concatBuffer = c.concatBuffer) :
    ∃ n vs, procGroups b = .ok (b.writeIndices n vs) ∧
      procGroups c = .ok (c.writeIndices n vs) := by
  obtain ⟨vs, hvs, -, -⟩ := extractGroups_ok b.concatBuffer (groupCount b.msgLen.toNat)
    (by rw [Block.bitlen_concatBuffer]; simp only [groupCount, Config.groupBits]; omega)
  refine ⟨groupCount b.msgLen.toNat, vs, ?_, ?_⟩
  · simp [procGroups, hb, hvs]
  · simp [procGroups, hc, ← hlen, ← hcb, hvs]

/-- R155: with a valid digest, two blocks both fault or both select the same group when their buffers
are the same. -/
theorem procGroup_pair (k : Nat) {b c : Block} (hb : b.dv = true) (hc : c.dv = true)
    (hcb : b.concatBuffer = c.concatBuffer) :
    (∃ info, procGroup k b = .fault .bitRead info ∧ procGroup k c = .fault .bitRead info) ∨
    (∃ v, procGroup k b = .ok (b.writeGroupSelect v) ∧
      procGroup k c = .ok (c.writeGroupSelect v)) := by
  cases hv : groupOf b.concatBuffer k with
  | error g =>
    refine .inl ⟨BitVec.ofNat 32 g, ?_, ?_⟩
    · simp [procGroup, hb, hv]
    · simp [procGroup, hc, ← hcb, hv]
  | ok v =>
    refine .inr ⟨v, ?_, ?_⟩
    · simp [procGroup, hb, hv]
    · simp [procGroup, hc, ← hcb, hv]

/-- R157: `ExecENCODE` is `ExecGROUPS` on the block that `ExecHASH` leaves. -/
theorem procEncode_eq (b : Block) : procEncode b = procGroups b.writeDigest := rfl

/-- What the completion of `HASH`, `GROUPS`, `GROUP k` or `ENCODE` writes besides `BUSY` and `DONE`, the
fault registers included; see `completeWith_pair`. -/
inductive MessageWrite where
  | digest
  | indices (n : Nat) (vs : List Index)
  | digestAndIndices (n : Nat) (vs : List Index)
  | groupSelect (v : Index)
  | noDigest
  | bitRead (info : Word)

def MessageWrite.apply (b : Block) : MessageWrite → Block
  | .digest => b.writeDigest
  | .indices n vs => b.writeIndices n vs
  | .digestAndIndices n vs => b.writeDigest.writeIndices n vs
  | .groupSelect v => b.writeGroupSelect v
  | .noDigest => b.raiseFault .noDigest b.cur
  | .bitRead info => b.raiseFault .bitRead info

/-- R140, R153, R155, R157: a command of the message side does one write, which depends on `DV`, the
message and the concatenated buffer only: two blocks with the same ones get the same write. -/
theorem completeWith_pair {i : Instr} (hi : i ∈ [Instr.hash, .groups, .encode] ∨ ∃ k, i = .group k)
    {b c : Block} (hdv : b.dv = c.dv) (hlen : b.msgLen = c.msgLen) (hmsg : b.msgBytes = c.msgBytes)
    (hcb : b.concatBuffer = c.concatBuffer) :
    ∃ m : MessageWrite, completeWith b (procOf i b) = (m.apply b).finish ∧
      completeWith c (procOf i c) = (m.apply c).finish := by
  cases i with
  | hash => exact ⟨.digest, rfl, rfl⟩
  | groups =>
    cases hb : b.dv with
    | false =>
      refine ⟨.noDigest, ?_, ?_⟩
      · rw [procOf_noDigest (.inl rfl) hb]; rfl
      · rw [procOf_noDigest (.inl rfl) (hdv ▸ hb)]; rfl
    | true =>
      obtain ⟨n, vs, hpb, hpc⟩ := procGroups_ok_pair hb (hdv ▸ hb) hlen hcb
      refine ⟨.indices n vs, ?_, ?_⟩
      · rw [procOf, hpb]; rfl
      · rw [procOf, hpc]; rfl
  | group k =>
    cases hb : b.dv with
    | false =>
      refine ⟨.noDigest, ?_, ?_⟩
      · rw [procOf_noDigest (.inr ⟨k, rfl⟩) hb]; rfl
      · rw [procOf_noDigest (.inr ⟨k, rfl⟩) (hdv ▸ hb)]; rfl
    | true =>
      rcases procGroup_pair k hb (hdv ▸ hb) hcb with ⟨info, hpb, hpc⟩ | ⟨v, hpb, hpc⟩
      · refine ⟨.bitRead info, ?_, ?_⟩
        · rw [procOf, hpb]; rfl
        · rw [procOf, hpc]; rfl
      · refine ⟨.groupSelect v, ?_, ?_⟩
        · rw [procOf, hpb]; rfl
        · rw [procOf, hpc]; rfl
  | encode =>
    obtain ⟨n, vs, hpb, hpc⟩ := procGroups_ok_pair (b := b.writeDigest) (c := c.writeDigest) rfl rfl
      hlen (by rw [writeDigest_concatBuffer, writeDigest_concatBuffer, hmsg])
    refine ⟨.digestAndIndices n vs, ?_, ?_⟩
    · rw [procOf, procEncode_eq, hpb]; rfl
    · rw [procOf, procEncode_eq, hpc]; rfl
  | nop | seed | clr => simp at hi

/-- The write of one block, the pair of a block with itself. -/
theorem completeWith_message {i : Instr}
    (hi : i ∈ [Instr.hash, .groups, .encode] ∨ ∃ k, i = .group k) (b : Block) :
    ∃ m : MessageWrite, completeWith b (procOf i b) = (m.apply b).finish := by
  obtain ⟨m, hm, -⟩ := completeWith_pair hi (b := b) (c := b) rfl rfl rfl rfl
  exact ⟨m, hm⟩

/-! ## What a completion leaves unchanged -/

/-- R97: a completion leaves `CUR` and `CTRL`. -/
theorem completeWith_cur_ctrl (i : Instr) (b : Block) :
    (completeWith b (procOf i b)).cur = b.cur ∧
      (completeWith b (procOf i b)).ieDone = b.ieDone ∧
      (completeWith b (procOf i b)).ieErr = b.ieErr := by
  rcases procOf_cases i b with ⟨b', hb, hcur, hdone, herr, -⟩ | ⟨f, info, hf, -⟩
  · rw [hb]
    exact ⟨hcur, hdone, herr⟩
  · rw [hf]
    exact ⟨rfl, rfl, rfl⟩

theorem MessageWrite.apply_sameInputs (m : MessageWrite) (b : Block) :
    (m.apply b).sameInputs b := by
  cases m <;> exact ⟨rfl, rfl, rfl, rfl, rfl, rfl⟩

/-- R257: the completion of any command but `CLR` leaves the inputs. -/
theorem completeWith_sameInputs {i : Instr} (hi : i ≠ .clr) (b : Block) :
    (completeWith b (procOf i b)).sameInputs b := by
  have message (hi : i ∈ [Instr.hash, .groups, .encode] ∨ ∃ k, i = .group k) :
      (completeWith b (procOf i b)).sameInputs b := by
    obtain ⟨m, hm⟩ := completeWith_message hi b
    exact hm ▸ m.apply_sameInputs b
  cases i with
  | nop | seed => exact ⟨rfl, rfl, rfl, rfl, rfl, rfl⟩
  | hash | groups | encode => exact message (.inl (by simp))
  | group k => exact message (.inr ⟨k, rfl⟩)
  | clr => exact absurd rfl hi

/-! ## The step lemmas -/

/-- Settles O56: `BUSY` and `CUR` through each of the four things a step does to the block. -/
theorem busyAndCurChangeOnlyByRule : Obligations.BusyAndCurChangeOnlyByRule := by
  intro s t hstep
  rcases block_of_step hstep with hb | ⟨r, w, rest, hp, hw⟩ | ⟨rest, hp, hb⟩ |
    ⟨i, hp, hbusy, hi, hb⟩
  · rw [hb]
    exact ⟨by simp, fun hbusy hidle => absurd_of_idle hidle hbusy⟩
  · rcases busy_cur_of_writeReg_ok hw with ⟨hbusy, hcur⟩ |
      ⟨rfl, hidle, hclear, hbusy, hcur, i, hi⟩
    · rw [hbusy, hcur]
      exact ⟨by simp, fun hbusy hidle => absurd_of_idle hidle hbusy⟩
    · exact ⟨fun _ => .inl ⟨w, rest, i, hp, hi, hidle, hclear, hcur, hbusy⟩,
        absurd_of_idle hidle⟩
  · rw [hb]
    exact ⟨fun _ => .inr ⟨rest, hp, rfl, rfl⟩, fun _ _ => .inr ⟨rest, hp⟩⟩
  · obtain ⟨hcur, -, -⟩ := completeWith_cur_ctrl i s.block
    rw [hb, hcur]
    exact ⟨by simp, fun _ _ => .inl ⟨i, hi, completeWith_done _ _, rfl, hp⟩⟩

/-- R27: the write of `STATUS` clears the three fault registers together, or none of them. -/
theorem writeStatus_fault (b : Block) (v : Word) :
    (v.getLsbD 2 = false ∧ (writeStatus b v).sameControl b) ∨
    (v.getLsbD 2 = true ∧ (writeStatus b v).err = false ∧ (writeStatus b v).errcode = 0#8 ∧
      (writeStatus b v).errinfo = 0#32) := by
  rw [writeStatus_eq]
  cases v.getLsbD 2
  · exact .inl ⟨rfl, rfl, rfl, Bool.and_true _, rfl, rfl⟩
  · exact .inr ⟨rfl, Bool.and_false _, rfl, rfl⟩

/-- Settles O57: with `ERR = 1` no command is accepted, and with `BUSY = 0` none completes. -/
theorem firstFaultIsKept : Obligations.FirstFaultIsKept := by
  intro s t hstep herr hidle
  have kept (h : t.block.sameControl s.block) :
      t.block.err = true ∧ t.block.errcode = s.block.errcode ∧
        t.block.errinfo = s.block.errinfo ∧ t.block.busy = false := by
    obtain ⟨hbusy, -, hkeep, hcode, hinfo⟩ := h
    exact ⟨hkeep.trans herr, hcode, hinfo, hbusy.trans hidle⟩
  rcases block_of_step hstep with hb | ⟨r, v, rest, hp, hw⟩ | ⟨rest, hp, hb⟩ |
    ⟨i, -, hbusy, -, -⟩
  · exact .inl (kept (hb ▸ ⟨rfl, rfl, rfl, rfl, rfl⟩))
  · rcases writeReg_ok_frame hw with ⟨-, -, hsame⟩ |
      ⟨-, ⟨rfl, hb⟩ | ⟨-, hsame⟩ | ⟨-, -, hclear, -⟩⟩
    · exact .inl (kept hsame)
    · rcases writeStatus_fault s.block v with ⟨-, hsame⟩ | ⟨hbit, hcleared⟩
      · exact .inl (kept (hb ▸ hsame))
      · exact .inr ⟨.inl ⟨v, rest, hp, hbit⟩, hb ▸ hcleared⟩
    · exact .inl (kept hsame)
    · exact absurd (hclear.symm.trans herr) Bool.false_ne_true
  · exact .inr ⟨.inr ⟨rest, hp⟩, hb ▸ ⟨rfl, rfl, rfl⟩⟩
  · exact absurd_of_idle hidle hbusy

/-- Settles O58: only the writes of input registers, `CLR` and reset are outside the frames above. -/
theorem inputsStayUntilOverwritten : Obligations.InputsStayUntilOverwritten := by
  intro s t hstep
  rcases block_of_step hstep with hb | ⟨r, v, rest, hp, hw⟩ | ⟨rest, hp, -⟩ |
    ⟨i, -, hbusy, hi, hb⟩
  · exact .inl (hb ▸ ⟨rfl, rfl, rfl, rfl, rfl, rfl⟩)
  · rcases writeReg_ok_frame hw with ⟨hinput, hidle, -⟩ | ⟨hsame, -⟩
    · exact .inr (.inl ⟨r.offset, v, rest, r, hp, regAt_offset r, hinput, hidle⟩)
    · exact .inl hsame
  · exact .inr (.inr (.inr ⟨rest, hp⟩))
  · by_cases hclr : i = .clr
    · exact .inr (.inr (.inl ⟨hbusy, hclr ▸ hi, hb ▸ completeWith_done _ _⟩))
    · exact .inl (hb ▸ completeWith_sameInputs hclr s.block)

/-! ## What reads see during execution (R75) -/

namespace BlockInv

variable {b : Block}

/-- R28: an invalid digest reads 0. -/
theorem regValue_digest (h : BlockInv b) (hdv : b.dv = false) (j : Fin 8) :
    b.regValue (.digest j) = 0#32 := by
  rw [Block.regValue, h.digest_zero hdv, Vector.getElem_replicate]

/-- R29: invalid indices and their count read 0. -/
theorem regValue_indices (h : BlockInv b) (hiv : b.iv = false) :
    (∀ n : Fin 24, b.regValue (.idx n) = 0#32) ∧ b.regValue .ngroups = 0#32 := by
  obtain ⟨hn, hidx⟩ := h.idx_zero hiv
  refine ⟨fun n => ?_, by rw [Block.regValue, hn]; rfl⟩
  rw [Block.regValue, hidx, Vector.getElem_replicate]
  rfl

/-- R41: an invalid selected group reads 0. -/
theorem regValue_gsel (h : BlockInv b) (hgv : b.gv = false) : b.regValue .gsel = 0#32 := by
  rw [Block.regValue, h.gsel_zero hgv]
  rfl

/-- R31: an invalid seed reads 0. -/
theorem regValue_seed (h : BlockInv b) (hsv : b.sv = false) (j : Fin 16) :
    b.regValue (.seed j) = 0#32 := by
  rw [Block.regValue, h.seed_zero hsv, Vector.getElem_replicate]

end BlockInv

/-- Settles O10: the flags by the invariant's facts about a command in execution, the registers by
those about invalid results. -/
theorem readsDuringExecution : Obligations.ReadsDuringExecution := by
  intro s i hinv hbusy hdecode
  have hres := hinv.busy_cleared hbusy i hdecode
  simp only [statusWord_busy, statusWord_done, statusWord_err, statusWord_dv, statusWord_iv,
    statusWord_gv, statusWord_sv]
  refine ⟨hbusy, hinv.busy_done hbusy, hinv.busy_err hbusy, ?messageSide, ?indices, ?groupSelect,
    ?seedSide⟩
  case messageSide =>
    intro hi
    have hcleared : s.block.dv = false ∧ s.block.iv = false ∧ s.block.gv = false := by
      rcases hi with rfl | rfl <;> exact hres
    obtain ⟨hdv, hiv, hgv⟩ := hcleared
    obtain ⟨hidx, hn⟩ := hinv.regValue_indices hiv
    exact ⟨hdv, hiv, hgv, hinv.regValue_digest hdv, hidx, hn, hinv.regValue_gsel hgv⟩
  case indices =>
    rintro rfl
    exact ⟨hres, hinv.regValue_indices hres⟩
  case groupSelect =>
    rintro k rfl
    exact ⟨hres, hinv.regValue_gsel hres⟩
  case seedSide =>
    rintro rfl
    exact ⟨hres, hinv.regValue_seed hres⟩

end Sys2Proof.Machine

/-! # The commands, one by one (spec/30_encoding.md R97, spec/40_sha256.md, spec/41_bitgroup.md) -/

namespace Sys2Proof.Machine

/-! ## `NOP`, `CLR` and `HASH` -/

/-- Settles O26: the procedure of `NOP` leaves the block as it is. -/
theorem nopCompletes : Obligations.NopCompletes :=
  fun s => exec_eq .nop s

/-- Settles O36: `ClearAll` gives the reset value to all but the control and fault registers. -/
theorem clrCompletes : Obligations.ClrCompletes :=
  fun s => exec_eq .clr s

/-- Settles O27: the digest registers hold the words of the 32 digest bytes. -/
theorem hashCompletes : Obligations.HashCompletes := by
  intro s
  have hwords := words32_sha256 s.block.msgBytes
  refine ⟨fillVector 8 0#32 (words32 (sha256 s.block.msgBytes)), exec_eq .hash s,
    sha256_length _, ?words, fun j => ?bytes⟩
  case words => rw [hwords, fillVector_toList _ _ _ (HashVars.toList_length _)]
  case bytes =>
    rw [fillVector_getElem, List.getD_eq_getElem?_getD,
      words32_getElem? _ _ (by rw [sha256_length]; omega), Option.getD_some]

/-! ## `GROUPS`, `GROUP k` and `ENCODE` -/

/-- R153: the index registers filled with the groups below the count, 0 above. -/
theorem fillVector_groups {cb : List Byte} {vs : List Index} {len : Nat}
    (hlen : vs.length = groupCount len)
    (hvs : ∀ g, g < groupCount len → groupOf cb g = .ok (vs.getD g 0#11)) (g : Fin 24) :
    (11 * g.val + 11 ≤ 8 * (len + 1) → groupOf cb g.val = .ok (fillVector 24 0#11 vs)[g.val]) ∧
      (8 * (len + 1) < 11 * g.val + 11 → (fillVector 24 0#11 vs)[g.val] = 0#11) := by
  rw [fillVector_getElem, ← not_le, ← lt_groupCount_iff]
  exact ⟨hvs g, fun hge => List.getD_eq_default _ _ (hlen.trans_le (Nat.le_of_not_lt hge))⟩

/-- Settles O28: the registers are those of `procGroups_ok`, each group read by `groupOf_ok`. -/
theorem groupsCompletes : Obligations.GroupsCompletes := by
  intro s hdv
  obtain ⟨vs, hproc, hlen, hvs⟩ := procGroups_ok s.block hdv
  refine ⟨fillVector 24 0#11 vs, ?step, ofNat_groupCount_toNat, fun g => ⟨fun hfits => ?_,
    (fillVector_groups hlen hvs g).2⟩⟩
  case step =>
    rw [exec_eq, procOf, hproc]
    rfl
  have hgroup := (fillVector_groups hlen hvs g).1 hfits
  rw [← Block.bitlen_concatBuffer] at hfits
  exact Except.ok.inj (hgroup.symm.trans (groupOf_ok _ _ hfits))

/-- Settles O29: the selected group is a field of the buffer's integer. -/
theorem groupCompletes : Obligations.GroupCompletes := by
  intro s k hdv hfits
  obtain ⟨v, hv, hproc⟩ := procGroup_of_lt_groupCount hdv ((lt_groupCount_iff _ _).mpr hfits)
  rw [← Block.bitlen_concatBuffer] at hfits ⊢
  obtain ⟨u, hu, -, hfield⟩ := (groupIsAFieldOfTheBuffer s.block.concatBuffer k).1 hfits
  cases hv.symm.trans hu
  refine ⟨v, ?_, hfield⟩
  rw [exec_eq, procOf, hproc]
  rfl

/-- Settles O30: `BIT_READ` carries the number of the group, which an operand holds whole. -/
theorem groupPastTheEndFaults : Obligations.GroupPastTheEndFaults := by
  intro s k hwf hdv hpast
  rw [← not_le, ← lt_groupCount_iff, not_lt] at hpast
  have hk : k < 256 := of_decide_eq_true hwf
  have hinfo : BitVec.setWidth 32 (BitVec.ofNat 8 k) = BitVec.ofNat 32 k := by
    apply BitVec.eq_of_toNat_eq
    rw [BitVec.toNat_setWidth, BitVec.toNat_ofNat, BitVec.toNat_ofNat, Nat.mod_eq_of_lt hk]
  rw [exec_eq, procOf, procGroup_of_groupCount_le hdv hpast, hinfo]
  rfl

/-- Settles O31: `DV` is tested before the buffer is looked at. -/
theorem missingDigestFaultsFirst : Obligations.MissingDigestFaultsFirst := by
  intro s i hi hdv
  rw [exec_eq, procOf_noDigest hi hdv]
  rfl

/-- Settles O33: `ENCODE` writes the digest and then, with `DV` set, the groups. -/
theorem encodeCompletes : Obligations.EncodeCompletes := by
  intro s
  obtain ⟨vs, hproc, hlen, hvs⟩ := procEncode_ok s.block
  rw [writeDigest_concatBuffer] at hvs
  refine ⟨fillVector 8 0#32 (words32 (sha256 s.block.msgBytes)), fillVector 24 0#11 vs, ?step,
    fillVector_toList _ _ _ (by simp), ofNat_groupCount_toNat, fillVector_groups hlen hvs⟩
  case step =>
    rw [exec_eq, procOf, hproc]
    rfl

/-! ## Completions and faults -/

/-- Settles O37: a procedure that answers a block keeps `ERR`, so a new fault is one of a group
command, taken on the block as it was. -/
theorem completionIsPrecise : Obligations.CompletionIsPrecise := by
  intro i s _
  obtain ⟨hcur, hdone, herr⟩ := completeWith_cur_ctrl i s.block
  refine ⟨_, exec_eq i s, rfl, rfl, completeWith_busy _ _, completeWith_done _ _, hcur, hdone, herr,
    fun hclear hraised => ?_⟩
  rcases procOf_cases i s.block with ⟨b, hb, -, -, -, hkeep, -, -⟩ | ⟨f, info, hf, hcause, hi⟩
  · rw [hb] at hraised
    exact absurd ((hkeep.trans hclear).symm.trans hraised) Bool.false_ne_true
  · rw [hf]
    refine ⟨hi, ?_, rfl⟩
    rcases hcause with rfl | rfl
    · exact .inl rfl
    · exact .inr rfl

/-- R53, R213: a completion that takes a fault sets both flags of the interrupt line. -/
theorem completeWith_fault_irq (b : Block) (f : CmdFault) (info : Word) :
    (completeWith b (.fault f info)).done = true ∧ (completeWith b (.fault f info)).err = true ∧
      (completeWith b (.fault f info)).irq = (b.ieDone || b.ieErr) := by
  refine ⟨rfl, rfl, ?_⟩
  simp [Block.irq]

/-- Settles O50: every completion sets `DONE`, and the two fault cases are those of
`procOf_noDigest` and `procGroup_of_groupCount_le`. -/
theorem interruptLine : Obligations.InterruptLine := by
  refine ⟨fun b => by simp [Block.irq], fun i s => ⟨_, exec_eq i s, ?done, ?fault⟩⟩
  case done =>
    intro hie
    obtain ⟨-, hieDone, -⟩ := completeWith_cur_ctrl i s.block
    simp [Block.irq, hieDone, hie]
  case fault =>
    rintro (⟨hdv, hi⟩ | ⟨hdv, k, rfl, hpast⟩)
    · rw [procOf_noDigest hi hdv]
      exact completeWith_fault_irq _ _ _
    · rw [← not_le, ← lt_groupCount_iff, not_lt] at hpast
      rw [procOf, procGroup_of_groupCount_le hdv hpast]
      exact completeWith_fault_irq _ _ _

/-! ## `ENCODE` is `HASH` and then `GROUPS` (R157) -/

/-- R96, R97: the block after the command `i`, issued as `w`, was accepted and completed. -/
def Block.afterCommand (b : Block) (w : Word) (i : Instr) : Block :=
  completeWith (accept b w i) (procOf i (accept b w i))

/-- R96: after an acceptance the engine's turn is the completion. -/
theorem engineTurn_answered_accept (s : State) {w : Word} {i : Instr} (hdecode : decode w = .ok i) :
    engineTurn (s.answered (accept s.block w i) .writeOk) =
      .next (s.answered (s.block.afterCommand w i) .writeOk) := by
  rw [engineTurn_of_decode (accept_busy _ w i) ((accept_cur s.block w i).symm ▸ hdecode), exec_eq]
  rfl

section
variable {s : State} {w : Word} {i : Instr} (hidle : s.block.busy = false)
  (hclear : s.block.err = false) (hdecode : decode w = .ok i)
include hidle hclear hdecode

theorem step_issue :
    step (s.withNext (.write 0x000#12 4 w)) =
      .next (s.answered (accept s.block w i) .writeOk) := by
  rw [step_write_cmd w hidle hclear, issue_of_decode hdecode]

/-- A command issued, and completed by an engine turn among the events. -/
theorem runSteps_issue_engine (n : Nat) :
    runSteps (n + 2) ((s.withNext .engine).withNext (.write 0x000#12 4 w)) =
      runSteps n (s.answered (s.block.afterCommand w i) .writeOk) :=
  (runSteps_succ (n + 1) (step_issue (s := s.withNext .engine) hidle hclear hdecode)).trans
    (runSteps_succ n ((step_engine _).trans (engineTurn_answered_accept s hdecode)))

/-- A command issued by the last event, and completed because nothing is pending (log 1). -/
theorem runSteps_issue_last (hnil : s.pending = []) :
    runSteps 2 (s.withNext (.write 0x000#12 4 w)) =
      .next (s.answered (s.block.afterCommand w i) .writeOk) := by
  have hturn := step_of_pending_nil (s := s.answered (accept s.block w i) .writeOk) hnil
  rw [runSteps_succ 1 (step_issue hidle hclear hdecode),
    runSteps_succ 0 (hturn.trans (engineTurn_answered_accept s hdecode)), runSteps_zero]

end

/-- R157: `ENCODE` leaves what `HASH` and then `GROUPS` leave, but for `CUR`. -/
theorem afterCommand_encode (b : Block) (wEncode wHash wGroups : Word) :
    b.afterCommand wEncode .encode =
      { (b.afterCommand wHash .hash).afterCommand wGroups .groups with cur := wEncode } := by
  obtain ⟨n, vs, hencode, hgroups⟩ := procGroups_ok_pair (b := (accept b wEncode .encode).writeDigest)
    (c := accept (b.afterCommand wHash .hash) wGroups .groups) rfl rfl rfl rfl
  have hleft : b.afterCommand wEncode .encode =
      ((accept b wEncode .encode).writeDigest.writeIndices n vs).finish := by
    rw [Block.afterCommand, procOf, procEncode_eq, hencode, completeWith_ok]
  have hright : (b.afterCommand wHash .hash).afterCommand wGroups .groups =
      ((accept (b.afterCommand wHash .hash) wGroups .groups).writeIndices n vs).finish := by
    rw [Block.afterCommand, procOf, hgroups, completeWith_ok]
  rw [hleft, hright]
  rfl

/-- Settles O34: the two runs are the issues and completions above, and `afterCommand_encode`
compares their blocks. -/
theorem encodeIsHashThenGroups : Obligations.EncodeIsHashThenGroups := by
  intro s hidle hclear
  have hencode := runSteps_issue_last (s := { s with pending := [] }) (w := 0x00000004#32)
    (i := .encode) hidle hclear rfl rfl
  have hhash := runSteps_issue_engine (i := .hash)
    (s := { s with pending := [.write 0x000#12 4 0x00000002#32] }) (w := 0x00000001#32)
    hidle hclear rfl 2
  have hgroups := runSteps_issue_last (i := .groups)
    (s := ({ s with pending := [] } : State).answered (s.block.afterCommand 0x00000001#32 .hash)
      .writeOk) (w := 0x00000002#32) rfl hclear rfl rfl
  refine ⟨_, _, hencode, hhash.trans hgroups, afterCommand_encode _ _ _ _, ?_, rfl, rfl⟩
  exact (completeWith_cur_ctrl .groups _).1

end Sys2Proof.Machine

/-! # What the commands do not depend on (spec/10_state.md R48, spec/42_kdf.md R170, spec/41_bitgroup.md R160)

Two blocks in a relation stay in it through each operation, taken on both; the completion of a command
is then a chain of its operations. -/

namespace Sys2Proof.Machine

/-! ## Bytes at and beyond the lengths (R48, R256) -/

namespace Block.agreeBelowLengths

variable {b c : Block}

theorem digest_eq (h : b.agreeBelowLengths c) : b.digest = c.digest := by rw [h.1]

theorem dv_eq (h : b.agreeBelowLengths c) : b.dv = c.dv := by rw [h.1]

theorem msgLen_eq (h : b.agreeBelowLengths c) : b.msgLen = c.msgLen := by rw [h.1]

theorem cur_eq (h : b.agreeBelowLengths c) : b.cur = c.cur := by rw [h.1]

theorem msgBytes_eq (h : b.agreeBelowLengths c) : b.msgBytes = c.msgBytes := h.2.1

theorem concatBuffer_eq (h : b.agreeBelowLengths c) : b.concatBuffer = c.concatBuffer := by
  rw [Block.concatBuffer, Block.concatBuffer, h.msgBytes_eq, Block.digestByte0, Block.digestByte0,
    h.digest_eq]

theorem finish (h : b.agreeBelowLengths c) : b.finish.agreeBelowLengths c.finish :=
  ⟨congrArg Block.finish h.1, h.2⟩

theorem raiseFault (h : b.agreeBelowLengths c) (f : CmdFault) (info : Word) :
    (b.raiseFault f info).agreeBelowLengths (c.raiseFault f info) :=
  ⟨congrArg (fun d : Block => d.raiseFault f info) h.1, h.2⟩

theorem writeIndices (h : b.agreeBelowLengths c) (n : Nat) (vs : List Index) :
    (b.writeIndices n vs).agreeBelowLengths (c.writeIndices n vs) :=
  ⟨congrArg (fun d : Block => d.writeIndices n vs) h.1, h.2⟩

theorem writeGroupSelect (h : b.agreeBelowLengths c) (v : Index) :
    (b.writeGroupSelect v).agreeBelowLengths (c.writeGroupSelect v) :=
  ⟨congrArg (fun d : Block => d.writeGroupSelect v) h.1, h.2⟩

theorem writeDigest (h : b.agreeBelowLengths c) : b.writeDigest.agreeBelowLengths c.writeDigest := by
  refine ⟨?_, h.2⟩
  have hc := congrArg (fun d : Block => { d with
    digest := fillVector 8 0#32 (words32 (sha256 c.msgBytes)), dv := true }) h.1
  rw [Block.writeDigest, Block.writeDigest, h.msgBytes_eq]
  exact hc

theorem writeSeed (h : b.agreeBelowLengths c) : b.writeSeed.agreeBelowLengths c.writeSeed := by
  refine ⟨?_, h.2⟩
  obtain ⟨hpwd, hpass⟩ := h.2.2
  have hc := congrArg (fun d : Block => { d with
    seed := fillVector 16 0#32 (words32 (kdf c.pwdBytes c.passBytes)), sv := true }) h.1
  rw [Block.writeSeed, Block.writeSeed, hpwd, hpass]
  exact hc

/-- R58: `ClearAll` clears the buffers too, so nothing is left to differ. -/
theorem clearAll (h : b.agreeBelowLengths c) : b.clearAll.agreeBelowLengths c.clearAll :=
  ⟨(congrArg Block.clearAll h.1 :), rfl, rfl, rfl⟩

theorem apply (h : b.agreeBelowLengths c) (m : MessageWrite) :
    (m.apply b).agreeBelowLengths (m.apply c) := by
  cases m with
  | digest => exact h.writeDigest
  | indices n vs => exact h.writeIndices n vs
  | digestAndIndices n vs => exact h.writeDigest.writeIndices n vs
  | groupSelect v => exact h.writeGroupSelect v
  | noDigest =>
    rw [MessageWrite.apply, MessageWrite.apply, h.cur_eq]
    exact h.raiseFault _ _
  | bitRead info => exact h.raiseFault _ _

theorem completeWith (h : b.agreeBelowLengths c) (i : Instr) :
    (completeWith b (procOf i b)).agreeBelowLengths (completeWith c (procOf i c)) := by
  have message (hi : i ∈ [Instr.hash, .groups, .encode] ∨ ∃ k, i = .group k) :
      (Machine.completeWith b (procOf i b)).agreeBelowLengths
        (Machine.completeWith c (procOf i c)) := by
    obtain ⟨m, hb, hc⟩ := completeWith_pair hi h.dv_eq h.msgLen_eq h.msgBytes_eq h.concatBuffer_eq
    rw [hb, hc]
    exact (h.apply m).finish
  cases i with
  | nop => exact h.finish
  | hash | groups | encode => exact message (.inl (by simp))
  | group k => exact message (.inr ⟨k, rfl⟩)
  | seed => exact h.writeSeed.finish
  | clr => exact h.clearAll.finish

end Block.agreeBelowLengths

/-- Settles O38: the commands see the buffers through their byte strings only. -/
theorem leftoverBytesAreIgnored : Obligations.LeftoverBytesAreIgnored :=
  fun i s t h => ⟨_, _, exec_eq i s, exec_eq i t, h.completeWith i⟩

/-! ## The two sides (R170, R255) -/

namespace Block.sameMessageSide

variable {b c : Block}

theorem msgBytes_eq (h : b.sameMessageSide c) : b.msgBytes = c.msgBytes := by
  obtain ⟨hmsg, hlen, -⟩ := h
  rw [Block.msgBytes, Block.msgBytes, hmsg, hlen]

theorem concatBuffer_eq (h : b.sameMessageSide c) : b.concatBuffer = c.concatBuffer := by
  have hbytes := h.msgBytes_eq
  obtain ⟨-, -, hdigest, -⟩ := h
  rw [Block.concatBuffer, Block.concatBuffer, hbytes, Block.digestByte0, Block.digestByte0, hdigest]

theorem writeDigest (h : b.sameMessageSide c) : b.writeDigest.sameMessageSide c.writeDigest := by
  have hbytes := h.msgBytes_eq
  obtain ⟨hmsg, hlen, -, -, hrest⟩ := h
  exact ⟨hmsg, hlen, by rw [Block.writeDigest_digest, Block.writeDigest_digest, hbytes], rfl, hrest⟩

theorem writeIndices (h : b.sameMessageSide c) (n : Nat) (vs : List Index) :
    (b.writeIndices n vs).sameMessageSide (c.writeIndices n vs) := by
  obtain ⟨hmsg, hlen, hdigest, hdv, -, -, -, hgroup⟩ := h
  exact ⟨hmsg, hlen, hdigest, hdv, rfl, rfl, rfl, hgroup⟩

theorem writeGroupSelect (h : b.sameMessageSide c) (v : Index) :
    (b.writeGroupSelect v).sameMessageSide (c.writeGroupSelect v) := by
  obtain ⟨hmsg, hlen, hdigest, hdv, hidx, hn, hiv, -, -⟩ := h
  exact ⟨hmsg, hlen, hdigest, hdv, hidx, hn, hiv, rfl, rfl⟩

/-- A fault leaves the side as it was, whatever goes to `ERRINFO`. -/
theorem apply (h : b.sameMessageSide c) (m : MessageWrite) :
    (m.apply b).sameMessageSide (m.apply c) := by
  cases m with
  | digest => exact h.writeDigest
  | indices n vs => exact h.writeIndices n vs
  | digestAndIndices n vs => exact h.writeDigest.writeIndices n vs
  | groupSelect v => exact h.writeGroupSelect v
  | noDigest | bitRead info => exact h

/-- R255: what a command of the message side leaves there depends on that side alone. -/
theorem completeWith {i : Instr} (h : b.sameMessageSide c)
    (hi : i ∈ [Instr.hash, .groups, .encode] ∨ ∃ k, i = .group k) :
    (completeWith b (procOf i b)).sameMessageSide (completeWith c (procOf i c)) := by
  have ⟨_, hlen, _, hdv, _⟩ := h
  obtain ⟨m, hb, hc⟩ := completeWith_pair hi hdv hlen h.msgBytes_eq h.concatBuffer_eq
  rw [hb, hc]
  exact h.apply m

end Block.sameMessageSide

theorem MessageWrite.apply_sameSeedSide (m : MessageWrite) (b : Block) :
    (m.apply b).sameSeedSide b := by
  cases m <;> exact ⟨rfl, rfl, rfl, rfl, rfl, rfl⟩

/-- R255: the commands of the message side write no register of the seed side. -/
theorem completeWith_sameSeedSide {i : Instr}
    (hi : i ∈ [Instr.hash, .groups, .encode] ∨ ∃ k, i = .group k) (b : Block) :
    (completeWith b (procOf i b)).sameSeedSide b := by
  obtain ⟨m, hm⟩ := completeWith_message hi b
  exact hm ▸ m.apply_sameSeedSide b

theorem Block.sameSeedSide.writeSeed {b c : Block} (h : b.sameSeedSide c) :
    b.writeSeed.sameSeedSide c.writeSeed := by
  obtain ⟨hpwd, hpwdLen, hsalt, hsaltLen, -, -⟩ := h
  refine ⟨hpwd, hpwdLen, hsalt, hsaltLen, ?_, rfl⟩
  simp only [Block.writeSeed_seed, Block.pwdBytes, Block.passBytes, hpwd, hpwdLen, hsalt, hsaltLen]

/-- Settles O39: frame and dependence of each side, by the lemmas above. -/
theorem sidesAreIndependent : Obligations.SidesAreIndependent := by
  refine ⟨fun i s t hi => ?message, fun s t => ?seed⟩
  case message =>
    exact ⟨_, _, exec_eq i s, exec_eq i t, completeWith_sameSeedSide hi s.block,
      fun h => h.completeWith hi⟩
  case seed =>
    exact ⟨_, _, exec_eq .seed s, exec_eq .seed t, ⟨rfl, rfl, rfl, rfl, rfl, rfl, rfl, rfl, rfl⟩,
      fun h => h.writeSeed⟩

/-! ## The trailing bits of the digest byte (R160) -/

/-- R10: a bit of the last byte, counted from its most significant bit. -/
theorem streamBit_append_singleton (msg : List Byte) (d : Byte) {r : Nat} (hr : r < 8) :
    streamBit (msg ++ [d]) (bitlen msg + r) = (d.toNat >>> (7 - r)) &&& 1 := by
  have hbyte : (bitlen msg + r) / 8 = msg.length := by rw [bitlen]; omega
  have hbit : (bitlen msg + r) % 8 = r := by rw [bitlen]; omega
  rw [streamBit, hbyte, hbit, List.getD_append_right _ _ _ _ (le_refl _), Nat.sub_self]
  rfl

/-- R160: the leading `c` bits of the last byte are all the stream has up to its bit number `c`. -/
theorem streamBit_eq_of_leading_bits (msg : List Byte) {d0 d1 : Byte} {c n : Nat} (hc : c ≤ 8)
    (h : d0 >>> (8 - c) = d1 >>> (8 - c)) (hn : n < bitlen msg + c) :
    streamBit (msg ++ [d0]) n = streamBit (msg ++ [d1]) n := by
  by_cases hmsg : n < bitlen msg
  · rw [streamBit_append_left _ hmsg, streamBit_append_left _ hmsg]
  · obtain ⟨r, rfl⟩ := Nat.exists_eq_add_of_le (Nat.le_of_not_lt hmsg)
    have hshift : 7 - r = (8 - c) + (c - 1 - r) := by omega
    have hlead : d0.toNat >>> (8 - c) = d1.toNat >>> (8 - c) := by
      simpa only [BitVec.toNat_ushiftRight] using congrArg BitVec.toNat h
    rw [streamBit_append_singleton _ _ (by omega), streamBit_append_singleton _ _ (by omega), hshift,
      Nat.shiftRight_add, Nat.shiftRight_add, hlead]

theorem takeBits_congr {s t : List Byte} {b n : Nat}
    (h : ∀ i, i < b + n → streamBit s i = streamBit t i) : takeBits s b n = takeBits t b n := by
  induction n with
  | zero => rfl
  | succ n ih => rw [takeBits, takeBits, ih fun i hi => h i (by omega), h (b + n) (by omega)]

/-- R156: the groups end where the consumed bits of the digest byte end, within that byte. -/
theorem checksumBitsConsumed_spec (len : Nat) :
    checksumBitsConsumed len ≤ 8 ∧
      ∀ g, g < groupCount len → 11 * g + 11 ≤ 8 * len + checksumBitsConsumed len := by
  simp only [checksumBitsConsumed, groupCount, Config.groupBits]
  exact ⟨by omega, fun g hg => by omega⟩

/-- Settles O44: a group below the count takes bits of the message and the leading bits of the digest
byte only. -/
theorem trailingBitsAreNeverRead : Obligations.TrailingBitsAreNeverRead := by
  intro msg d0 d1 h g hg
  obtain ⟨hc, hends⟩ := checksumBitsConsumed_spec msg.length
  have hend := hends g hg
  have hbuffer (d : Byte) : 11 * g + 11 ≤ bitlen (msg ++ [d]) := by
    rw [bitlen, List.length_append, List.length_singleton, Nat.mul_succ]
    omega
  rw [groupOf_ok _ _ (hbuffer d0), groupOf_ok _ _ (hbuffer d1),
    takeBits_congr fun i hi => streamBit_eq_of_leading_bits msg hc h ?_]
  exact Nat.lt_of_lt_of_le hi hend

end Sys2Proof.Machine

/-! # The key derivation (spec/42_kdf.md R185, R186, R189, R191) -/

namespace Sys2Proof.Machine

/-- R185: PBKDF2 for as many bytes as one output of the PRF has is its first block. -/
theorem pbkdf2_one_block {prf : List Byte → List Byte → List Byte} {hLen c : Nat}
    {pwd salt : List Byte} (hpos : 0 < hLen)
    (hlen : (pbkdf2Block (prf pwd) salt c 1).length = hLen) :
    pbkdf2 prf hLen pwd salt c hLen = pbkdf2Block (prf pwd) salt c 1 := by
  have hblocks : (hLen + hLen - 1) / hLen = 1 :=
    Nat.div_eq_of_lt_le (by omega) (by omega)
  rw [pbkdf2, hblocks, List.range_one, List.map_singleton, List.flatten_singleton,
    List.take_of_length_le hlen.le]

/-- R189: the key derivation is the first block with the parameters of R186. -/
theorem kdf_eq_pbkdf2Block (pwd pass : List Byte) :
    kdf pwd pass = pbkdf2Block (hmac512 pwd) (kdfSalt pass) 2048 1 := rfl

/-- Settles O48: 64 bytes are one output of `HMAC512`. -/
theorem kdfIsOneBlockOfPbkdf2 : Obligations.KdfIsOneBlockOfPbkdf2 := by
  intro pwd pass
  refine ⟨?_, kdf_length pwd pass⟩
  rw [pbkdf2_one_block (by decide) (kdf_eq_pbkdf2Block pwd pass ▸ kdf_length pwd pass),
    kdf_eq_pbkdf2Block]

/-- R176: the 64-bit word number `i` is the integer of its eight bytes. -/
theorem words64_getElem? (s : List Byte) (i : Nat) (h : 8 * i + 8 ≤ s.length) :
    (words64 s)[i]? = some (BitVec.ofNat 64 (intOf ((s.drop (8 * i)).take 8))) := by
  have hfront : (s.take (8 * i)).length = 8 * i := by rw [List.length_take]; omega
  have hword : ((s.drop (8 * i)).take 8).length = 8 := by
    rw [List.length_take, List.length_drop]
    omega
  have hsplit : words64 s = words64 (s.take (8 * i)) ++
      (BitVec.ofNat 64 (intOf ((s.drop (8 * i)).take 8)) :: words64 ((s.drop (8 * i)).drop 8)) := by
    rw [← words64_append8 _ _ hword, List.take_append_drop, ← words64_append _ _ i hfront,
      List.take_append_drop]
  have hcount : (words64 (s.take (8 * i))).length = i := by rw [words64_length, hfront]; omega
  rw [hsplit, List.getElem?_append_right hcount.le, hcount, Nat.sub_self, List.getElem?_cons_zero]

/-- R45: the halves of a 64-bit word as numbers. -/
theorem extractLsb'_halves (x : Nat) {y : Nat} (hy : y < 4294967296) :
    (BitVec.ofNat 64 (x * 4294967296 + y)).extractLsb' 32 32 = BitVec.ofNat 32 x ∧
      (BitVec.ofNat 64 (x * 4294967296 + y)).extractLsb' 0 32 = BitVec.ofNat 32 y := by
  constructor
  · apply BitVec.eq_of_toNat_eq
    rw [BitVec.extractLsb'_toNat, BitVec.toNat_ofNat, BitVec.toNat_ofNat,
      Nat.shiftRight_eq_div_pow]
    omega
  · apply BitVec.eq_of_toNat_eq
    rw [BitVec.extractLsb'_toNat, BitVec.toNat_ofNat, BitVec.toNat_ofNat, Nat.shiftRight_zero]
    omega

/-- R45: the halves of a 64-bit word are the 32-bit words of its first bytes and its last four. -/
theorem ofNat_intOf_append_halves (p : List Byte) {q : List Byte} (hq : q.length = 4) :
    (BitVec.ofNat 64 (intOf (p ++ q))).extractLsb' 32 32 = BitVec.ofNat 32 (intOf p) ∧
      (BitVec.ofNat 64 (intOf (p ++ q))).extractLsb' 0 32 = BitVec.ofNat 32 (intOf q) := by
  have hpow : 256 ^ q.length = 4294967296 := by rw [hq]; norm_num only
  have hlt := intOf_lt q
  rw [intOf_append]
  rw [hpow] at hlt ⊢
  exact extractLsb'_halves (intOf p) hlt

/-- R45: `SEED[2i]` and `SEED[2i + 1]` are the halves of the 64-bit word `i` of the same bytes. -/
theorem words32_halves_of_words64 {s : List Byte} {i : Nat} (h : 8 * i + 8 ≤ s.length) :
    ∃ w : Word64, (words64 s)[i]? = some w ∧ (words32 s)[2 * i]? = some (w.extractLsb' 32 32) ∧
      (words32 s)[2 * i + 1]? = some (w.extractLsb' 0 32) := by
  have hbytes : (s.drop (8 * i)).take 8 =
      (s.drop (4 * (2 * i))).take 4 ++ (s.drop (4 * (2 * i + 1))).take 4 := by
    rw [show 8 * i = 4 * (2 * i) by omega, show 4 * (2 * i + 1) = 4 * (2 * i) + 4 by omega,
      ← List.drop_drop, ← List.take_add]
  obtain ⟨hupper, hlower⟩ := ofNat_intOf_append_halves ((s.drop (4 * (2 * i))).take 4)
    (q := (s.drop (4 * (2 * i + 1))).take 4) (by rw [List.length_take, List.length_drop]; omega)
  refine ⟨_, words64_getElem? s i h, ?_, ?_⟩
  · rw [hbytes, hupper, words32_getElem? _ _ (by omega)]
  · rw [hbytes, hlower, words32_getElem? _ _ (by omega)]

/-- Settles O35: the registers hold the words of the derived key, which is PBKDF2's. -/
theorem seedCompletes : Obligations.SeedCompletes := by
  intro s
  have hlen := kdf_length s.block.pwdBytes s.block.passBytes
  refine ⟨fillVector 16 0#32 (words32 (kdf s.block.pwdBytes s.block.passBytes)), exec_eq .seed s,
    hlen, ?words, fun i => ?halves⟩
  case words =>
    rw [fillVector_toList _ _ _ (by rw [words32_length, hlen]), (kdfIsOneBlockOfPbkdf2 _ _).1]
    rfl
  case halves =>
    obtain ⟨w, hw, hupper, hlower⟩ := words32_halves_of_words64 (i := i.val)
      (s := kdf s.block.pwdBytes s.block.passBytes) (by omega)
    refine ⟨w, hw, ?_, ?_⟩
    · rw [fillVector_getElem, List.getD_eq_getElem?_getD, hupper, Option.getD_some]
    · rw [fillVector_getElem, List.getD_eq_getElem?_getD, hlower, Option.getD_some]

end Sys2Proof.Machine

/-! # Written-out words and tables (spec/30_encoding.md R104, spec/41_bitgroup.md R156, spec/10_state.md R33) -/

namespace Sys2Proof.Machine

/-- Settles O3: the words are literals, so the decoder runs on each. -/
theorem writtenOutWordsDecode : Obligations.WrittenOutWordsDecode := by
  unfold Obligations.WrittenOutWordsDecode
  decide

/-- R156: the groups and the trailing bits fill the buffer of any message, and the trailing bits are
less than a group. -/
theorem bitlen_eq_groups_add_trailingBits (len : Nat) :
    bitlen (zeros (len + 1)) = 11 * groupCount len + trailingBits len ∧ trailingBits len ≤ 10 := by
  simp only [bitlen, zeros_length, trailingBits, groupCount, Config.groupBits]
  exact ⟨by omega, by omega⟩

/-- Settles O46: the table by evaluation, the sum for every length. -/
theorem groupCountTable : Obligations.GroupCountTable :=
  ⟨by decide, fun l => bitlen_eq_groups_add_trailingBits l.val⟩

/-- R33: the legal entropy lengths, as `ENT_OK` lists them. -/
theorem entOk_iff (b : Block) : b.entOk = true ↔ b.msgLen.toNat ∈ [16, 20, 24, 28, 32] := by
  rw [Block.entOk, List.contains_iff_mem]
  rfl

/-- R33: they are the multiples of 32 bits from 128 to 256. -/
theorem mem_entropyLengths_iff (n : Nat) :
    n ∈ [16, 20, 24, 28, 32] ↔ (8 * n) % 32 = 0 ∧ 128 ≤ 8 * n ∧ 8 * n ≤ 256 := by
  simp only [List.mem_cons, List.not_mem_nil, or_false]
  omega

/-- Settles O9: bit 7 of `STATUS` is `ENT_OK`. -/
theorem entropyLengthFlag : Obligations.EntropyLengthFlag := by
  intro b
  rw [statusWord_entOk, entOk_iff]
  exact ⟨Iff.rfl, mem_entropyLengths_iff _⟩

end Sys2Proof.Machine

/-! # The register map and the window (spec/10_state.md R22, spec/20_memory.md R65, R78) -/

namespace Sys2Proof.Machine

theorem le_of_regInRun_eq_none {count n : Nat} {mk : Fin count → Reg}
    (h : regInRun count mk n = none) : count ≤ n := by
  by_contra hlt
  rw [regInRun, dif_pos (Nat.lt_of_not_le hlt)] at h
  cases h

/-- R65: the map has a register at every word number outside the reserved ranges. -/
theorem reserved_of_regAtWord_eq_none {n : Nat} (h : regAtWord n = none) :
    (0x00A ≤ n ∧ n ≤ 0x00F) ∨ (0x038 ≤ n ∧ n ≤ 0x03F) ∨ (0x050 ≤ n ∧ n ≤ 0x07F) ∨
      (0x0C0 ≤ n ∧ n ≤ 0x0FF) ∨ 0x200 ≤ n := by
  unfold regAtWord at h
  split_ifs at h with hword hmsg hdigest hidx hseed hsalt
  · by_cases hnamed : n < 0x00A
    · interval_cases n <;> cases h
    · omega
  all_goals
    have hle := le_of_regInRun_eq_none h
    omega

/-- R65: the offsets without a register. -/
theorem regAt_eq_none_iff (off : Offset) :
    regAt off = none ↔
      (off.toNat % 4 ≠ 0 ∨ (0x028 ≤ off.toNat ∧ off.toNat ≤ 0x03F) ∨
        (0x0E0 ≤ off.toNat ∧ off.toNat ≤ 0x0FF) ∨ (0x140 ≤ off.toNat ∧ off.toNat ≤ 0x1FF) ∨
        (0x300 ≤ off.toNat ∧ off.toNat ≤ 0x3FF) ∨ 0x800 ≤ off.toNat) := by
  by_cases halign : off.toNat % 4 = 0
  · rw [regAt, if_pos halign]
    constructor
    · intro h
      have hword := reserved_of_regAtWord_eq_none h
      omega
    · exact fun h => regAtWord_reserved (by omega)
  · simp [regAt, halign]

/-- Settles O6: the map inverts the offset column, and its gaps are the reserved words. -/
theorem registerMapIsOneToOne : Obligations.RegisterMapIsOneToOne :=
  ⟨regAt_offset, fun _ _ h => (eq_offset_of_regAt h).symm, regAt_eq_none_iff⟩

/-- Settles O7: an offset is below 4096, so it and its address in the window determine each other. -/
theorem windowAddressesNameOffsets : Obligations.WindowAddressesNameOffsets := by
  refine ⟨Nat.mul_mod_right 4096 _, fun address off => ?_⟩
  have hoff : off.toNat < 4096 := off.isLt
  by_cases hin : Config.base ≤ address ∧ address < Config.base + 4096
  · rw [offsetOfAddress, if_pos hin, Option.some.injEq, ← BitVec.toNat_inj, BitVec.toNat_ofNat]
    omega
  · rw [offsetOfAddress, if_neg hin]
    refine ⟨nofun, fun h => absurd ?_ hin⟩
    omega

end Sys2Proof.Machine

/-! # The acknowledgement (spec/60_exceptions.md R217, spec/70_reset_and_hazards.md R254) -/

namespace Sys2Proof.Machine

/-- R27: the write of `STATUS` bit 2 clears the fault and touches nothing else but `DONE`. -/
theorem writeStatus_ack (b : Block) {v : Word} (hv : v.getLsbD 2 = true) :
    writeStatus b v =
      { b with done := (writeStatus b v).done, err := false, errcode := 0#8, errinfo := 0#32 } := by
  simp [writeStatus_eq, hv]

/-- Settles O23: with the fault gone and `BUSY = 0` the next command is not locked out. -/
theorem acknowledgementReopensCommands : Obligations.AcknowledgementReopensCommands := by
  intro s v w i hidle hv hdecode
  have hack := writeStatus_ack s.block hv
  have hidle' : (writeStatus s.block v).busy = false := by rw [hack]; exact hidle
  have hclear : (writeStatus s.block v).err = false := by rw [hack]
  have hcommand := step_issue (s := s.answered (writeStatus s.block v) .writeOk) hidle' hclear hdecode
  refine ⟨_, _, step_writeReg_ok (writeReg_status s.block v), hclear, ?_, ?_, hack, hcommand,
    accept_busy _ w i, accept_cur _ w i⟩
  · rw [answered_block, hack]
  · rw [answered_block, hack]

end Sys2Proof.Machine

/-! # Buffer words and the line `ldmsg` (spec/10_state.md R42, R46 to R48, spec/30_encoding.md R101) -/

namespace Sys2Proof.Machine

section
variable {b : Block}

/-- R49: the invalidation of the message side leaves what the input registers read. -/
theorem regValue_invalM {r : Reg} (hr : r.isInput = true) : b.invalM.regValue r = b.regValue r := by
  cases r with
  | msgLen | pwdLen | saltLen | msg _ | salt _ | pwd _ => rfl
  | cmd | status | ctrl | errcode | errinfo | ngroups | gsel => cases hr
  | digest _ | idx _ | seed _ => cases hr

/-- R50: so does that of the seed side. -/
theorem regValue_invalK {r : Reg} (hr : r.isInput = true) : b.invalK.regValue r = b.regValue r := by
  cases r with
  | msgLen | pwdLen | saltLen | msg _ | salt _ | pwd _ => rfl
  | cmd | status | ctrl | errcode | errinfo | ngroups | gsel => cases hr
  | digest _ | idx _ | seed _ => cases hr

/-! A new buffer word is read at its own register alone. -/

theorem regValue_set_msg {j : Fin 8} {r : Reg} (v : Word) (hr : r ≠ .msg j) :
    ({ b with msg := b.msg.set j.val v } : Block).regValue r = b.regValue r := by
  cases r with
  | msg j' =>
    have hne : j.val ≠ j'.val := fun h => hr (congrArg Reg.msg (Fin.ext h.symm))
    exact Vector.getElem_set_ne j.isLt j'.isLt hne
  | _ => rfl

theorem regValue_set_salt {j : Fin 64} {r : Reg} (v : Word) (hr : r ≠ .salt j) :
    ({ b with salt := b.salt.set j.val v } : Block).regValue r = b.regValue r := by
  cases r with
  | salt j' =>
    have hne : j.val ≠ j'.val := fun h => hr (congrArg Reg.salt (Fin.ext h.symm))
    exact Vector.getElem_set_ne j.isLt j'.isLt hne
  | _ => rfl

theorem regValue_set_pwd {j : Fin 256} {r : Reg} (v : Word) (hr : r ≠ .pwd j) :
    ({ b with pwd := b.pwd.set j.val v } : Block).regValue r = b.regValue r := by
  cases r with
  | pwd j' =>
    have hne : j.val ≠ j'.val := fun h => hr (congrArg Reg.pwd (Fin.ext h.symm))
    exact Vector.getElem_set_ne j.isLt j'.isLt hne
  | _ => rfl

/-- R42, R46, R47: a write to a buffer word of an idle block stores it and keeps the other inputs. -/
theorem writeReg_buffer {r : Reg} (v : Word) (hidle : b.busy = false)
    (hr : (∃ j, r = .msg j) ∨ (∃ j, r = .salt j) ∨ (∃ j, r = .pwd j)) :
    ∃ b', writeReg b r v = .ok b' ∧ b'.regValue r = v ∧
      ∀ r' : Reg, r' ≠ r → r'.isInput = true → b'.regValue r' = b.regValue r' := by
  rcases hr with ⟨j, rfl⟩ | ⟨j, rfl⟩ | ⟨j, rfl⟩
  · exact ⟨_, writeReg_msg j hidle, Vector.getElem_set_self j.isLt,
      fun r' hne hin => (regValue_invalM hin).trans (regValue_set_msg v hne)⟩
  · exact ⟨_, writeReg_salt j hidle, Vector.getElem_set_self j.isLt,
      fun r' hne hin => (regValue_invalK hin).trans (regValue_set_salt v hne)⟩
  · exact ⟨_, writeReg_pwd j hidle, Vector.getElem_set_self j.isLt,
      fun r' hne hin => (regValue_invalK hin).trans (regValue_set_pwd v hne)⟩

end

/-- Settles O20: a read gives the register at its offset, and different offsets hold different
registers. -/
theorem bufferWordsReadBack : Obligations.BufferWordsReadBack := by
  intro s off v r hidle hreg hr
  obtain ⟨b, hwrite, hself, hothers⟩ := writeReg_buffer v hidle hr
  cases eq_offset_of_regAt hreg
  refine ⟨_, step_writeReg_ok hwrite, ?_, fun off' r' hne hreg' hin => ?_⟩
  · rw [memRead_offset, answered_block, hself]
  · cases eq_offset_of_regAt hreg'
    rw [memRead_offset, memRead_offset, answered_block,
      hothers r' (fun h => hne (congrArg Reg.offset h)) hin]

/-! ## The bytes of padded words (R101) -/

/-- R48: the bytes of a word made of four bytes. -/
theorem wordByte_ofNat_intOf {p : List Byte} (hp : p.length = 4) {r : Nat} (hr : r < 4) :
    wordByte (BitVec.ofNat 32 (intOf p)) r = p.getD r 0#8 := by
  match p, hp with
  | [a, b, c, d], _ =>
    rw [wordByte_eq _ _ hr]
    apply BitVec.eq_of_toNat_eq
    have hint : intOf [a, b, c, d] =
        ((a.toNat * 256 + b.toNat) * 256 + c.toNat) * 256 + d.toNat := by
      simp [intOf]
      ring
    simp only [BitVec.toNat_ofNat, Nat.shiftRight_eq_div_pow, hint]
    interval_cases r <;> simp <;> omega

/-- R101: there is a padded word for every four bytes begun. -/
theorem paddedWords_length (m : List Byte) : (paddedWords m).length = (m.length + 3) / 4 := by
  rw [paddedWords, words32_length, List.length_append, zeros_length]

/-- R101, R48: a buffer that begins with the padded words of a byte string holds the string. -/
theorem bufferBytes_paddedWords (m : List Byte) (tail : List Word) :
    bufferBytes (paddedWords m ++ tail) m.length = m := by
  apply List.ext_getElem (bufferBytes_length _ _)
  intro i _ hi
  have hend : 4 * (i / 4) + 4 ≤ (m ++ zeros 3).length := by
    rw [List.length_append, zeros_length]
    omega
  have hword : (paddedWords m ++ tail).getD (i / 4) 0#32 =
      BitVec.ofNat 32 (intOf (((m ++ zeros 3).drop (4 * (i / 4))).take 4)) := by
    rw [List.getD_append _ _ _ _ (by rw [paddedWords_length]; omega),
      List.getD_eq_getElem?_getD, paddedWords, words32_getElem? _ _ hend, Option.getD_some]
  have hfour : (((m ++ zeros 3).drop (4 * (i / 4))).take 4).length = 4 := by
    rw [List.length_take, List.length_drop]
    omega
  have hr : i % 4 < 4 := Nat.mod_lt _ (by decide)
  have hplace : 4 * (i / 4) + i % 4 = i := Nat.div_add_mod i 4
  simp only [bufferBytes, List.getElem_map, List.getElem_range]
  rw [bufferByte, hword, wordByte_ofNat_intOf hfour hr, List.getD_eq_getElem _ _ (by omega),
    List.getElem_take, List.getElem_drop]
  simp only [hplace]
  exact List.getElem_append_left hi

/-! ## A run of accepted writes -/

/-- One accepted write at the front of the events. -/
theorem runSteps_write {s : State} {r : Reg} {v : Word} {b : Block}
    (h : writeReg s.block r v = .ok b) (n : Nat) :
    runSteps (n + 1) (s.withNext (writeEvent r.offset v)) = runSteps n (s.answered b .writeOk) :=
  runSteps_succ n (step_writeReg_ok h)

/-- R42, R49: the block after the words have been written to the message buffer from word `k` on; see
`runSteps_storeMessage`. -/
def Block.storeMessage (b : Block) (k : Nat) : List Word → Block
  | [] => b
  | w :: ws => ({ b with msg := b.msg.setIfInBounds k w }.invalM).storeMessage (k + 1) ws

/-- R49: such writes touch neither the seed side nor `BUSY`. -/
theorem storeMessage_frame (b : Block) (k : Nat) (ws : List Word) :
    (b.storeMessage k ws).sameSeedSide b ∧ (b.storeMessage k ws).busy = b.busy := by
  induction ws generalizing b k with
  | nil => exact ⟨⟨rfl, rfl, rfl, rfl, rfl, rfl⟩, rfl⟩
  | cons w ws ih => exact ih ({ b with msg := b.msg.setIfInBounds k w }.invalM) (k + 1)

/-- R42: the words stand in the buffer from word `k` on. -/
theorem storeMessage_msg (b : Block) {k : Nat} {ws : List Word} (h : k + ws.length ≤ 8) :
    (b.storeMessage k ws).msg.toList =
      b.msg.toList.take k ++ (ws ++ b.msg.toList.drop (k + ws.length)) := by
  induction ws generalizing b k with
  | nil => exact (List.take_append_drop k _).symm
  | cons w ws ih =>
    rw [List.length_cons] at h ⊢
    have hk : k < b.msg.toList.length := by rw [Vector.length_toList]; omega
    have hset : (b.msg.setIfInBounds k w).toList = b.msg.toList.set k w := by
      rw [Vector.toList, Vector.toArray_setIfInBounds, Array.toList_setIfInBounds]
      rfl
    have htake : (b.msg.toList.set k w).take (k + 1) = b.msg.toList.take k ++ [w] := by
      rw [List.take_succ_eq_append_getElem (by rwa [List.length_set]), List.take_set_of_le le_rfl,
        List.getElem_set_self]
    have hdrop : (b.msg.toList.set k w).drop (k + 1 + ws.length) =
        b.msg.toList.drop (k + (ws.length + 1)) := by
      rw [List.drop_set_of_lt (by omega), Nat.add_assoc, Nat.add_comm 1]
    rw [Block.storeMessage, ih _ (by omega), Block.invalM_msg, hset, htake, hdrop,
      List.append_assoc]
    rfl

/-- R70, R101: the words of a message are written one step each, and every write is answered OK. -/
theorem runSteps_storeMessage (b : Block) (rest : List Event) (resp : List Response) {k : Nat}
    {ws : List Word} (hidle : b.busy = false) (h : k + ws.length ≤ 8) (n : Nat) :
    runSteps (ws.length + n)
        { block := b, responses := resp, pending :=
            ws.mapIdx (fun j w => writeEvent (BitVec.ofNat 12 (0x040 + 4 * (k + j))) w) ++ rest } =
      runSteps n
        { block := b.storeMessage k ws
          pending := rest
          responses := List.replicate ws.length .writeOk ++ resp } := by
  induction ws generalizing b resp k with
  | nil => rw [List.length_nil, Nat.zero_add]; rfl
  | cons w ws ih =>
    rw [List.length_cons] at h
    have hk : k < 8 := by omega
    have hset : b.msg.setIfInBounds k w = b.msg.set k w := by
      simp [Vector.setIfInBounds, Vector.set, Array.setIfInBounds, hk]
    have hwrite := writeReg_msg (v := w) ⟨k, hk⟩ hidle
    have hrun := ih ({ b with msg := b.msg.set k w }.invalM) (.writeOk :: resp) (k := k + 1) hidle
      (by omega)
    rw [List.length_cons, Nat.add_right_comm, List.mapIdx_cons, List.cons_append,
      Block.storeMessage, hset, List.replicate_succ', List.append_assoc, List.singleton_append,
      ← hrun]
    simp only [Nat.add_right_comm k 1]
    exact runSteps_write (s := { block := b, pending := _, responses := resp }) hwrite _

/-- R101: the events of `ldmsg`, the words and then the length. -/
theorem ldmsg_events (m : List Byte) :
    (HostLine.ldmsg m).events =
      (paddedWords m).mapIdx (fun j w => writeEvent (BitVec.ofNat 12 (0x040 + 4 * (0 + j))) w) ++
        [writeEvent Reg.msgLen.offset (BitVec.ofNat 32 m.length)] := by
  simp only [Nat.zero_add]
  rfl

/-- R48: the message of a block that holds the padded words and the length of a byte string. -/
theorem msgBytes_of_paddedWords {b : Block} {m : List Byte} {tail : List Word}
    (hmsg : b.msg.toList = paddedWords m ++ tail) (hlen : b.msgLen.toNat = m.length) :
    b.msgBytes = m := by
  rw [Block.msgBytes, hmsg, hlen, bufferBytes_paddedWords]

/-- Settles O59: the words are stored from `MSG[0]` on, and the length then makes them the string. -/
theorem loadMessageLineLoads : Obligations.LoadMessageLineLoads := by
  intro s m hidle hm
  have hwords : 0 + (paddedWords m).length ≤ 8 := by rw [paddedWords_length]; omega
  obtain ⟨hseed, hbusy⟩ := storeMessage_frame s.block 0 (paddedWords m)
  have hlen : (BitVec.ofNat 32 m.length).toNat = m.length := by
    rw [BitVec.toNat_ofNat, Nat.mod_eq_of_lt (by omega)]
  have hcap : (BitVec.ofNat 32 m.length).toNat ≤ Config.msgCap := hlen.trans_le hm
  have hmsgLen := writeReg_msgLen (hbusy.trans hidle) hcap
  have hcount : (HostLine.ldmsg m).events.length = (paddedWords m).length + 1 := by
    rw [ldmsg_events, List.length_append, List.length_mapIdx, List.length_singleton]
  have hrun := runSteps_storeMessage s.block
    (writeEvent Reg.msgLen.offset (BitVec.ofNat 32 m.length) :: s.pending) s.responses hidle hwords 1
  rw [hcount, ldmsg_events, List.append_assoc]
  refine ⟨_, hrun.trans (runSteps_write (s := { block := _, pending := _, responses := _ })
    hmsgLen 0), ?bytes, rfl, hseed, ?answers⟩
  case bytes =>
    refine msgBytes_of_paddedWords (storeMessage_msg s.block hwords) ?_
    simp only [answered_block, Block.invalM_msgLen, BitVec.toNat_ofNat]
    omega
  case answers => rfl

end Sys2Proof.Machine
